-- ==== Sys2Proof/Word.lean ====
section
/-! DEFINITION. The word types of the block: bytes of the frame, 32-bit counts and times, binary32 patterns,
command words. The widths are those of spec/00_scope.md rule R9. -/

namespace Sys2Proof

/-- One byte of the RawFrame (R24). -/
abbrev Byte := BitVec 8

/-- A `CLK_W` = `DUR_W` = 32-bit unsigned value: a time in milliseconds, a duration, the pulse counter (R9). -/
abbrev Word := BitVec 32

/-- An IEEE 754 binary32 bit pattern (R185). -/
abbrev F32 := BitVec 32

/-- A command word on the command port (R80). -/
abbrev CmdWord := BitVec 16

end Sys2Proof
end

