-- ==== Sys2Proof/Syntax.lean ====
section
/-! DEFINITION. The instructions of the block, one constructor per row of spec/opcode_table.json: the four host
commands (format CMD), the thirteen sequencer steps (format PHASE) and the five internal functions (format FUNC). -/

namespace Sys2Proof

/-- A line level, also the operand of `EXPECT` (R93: LOW = 0, HIGH = 1). -/
inductive Level where
  | low
  | high
deriving DecidableEq, Repr, Inhabited

/-- The thirteen phases of the sequencer (R27). Codes 13 to 15 are reserved and never entered; no value of this
type stands for them (log 13). -/
inductive Phase where
  | idle
  | gate
  | clear
  | startPre
  | startLow
  | startRel
  | ackLow
  | ackHigh
  | capLow
  | capHigh
  | decode
  | csum
  | respond
deriving DecidableEq, Repr, Inhabited

/-- One constructor per row of the opcode table. -/
inductive Instr where
  /-- CMD `CONSTRUCT pin` (R111). -/
  | construct (pin : BitVec 8)
  /-- CMD `BEGIN` (R112). -/
  | begin
  /-- CMD `READ` (R113). -/
  | read
  /-- CMD `GETSPECS` (R116). -/
  | getspecs
  /-- PHASE 0: no command in progress; acceptance of a command (R110, R153). -/
  | idle
  /-- PHASE 1: sample the clock, compare with `LAST_MS` (R117, R153). -/
  | gate
  /-- PHASE 2: step a of the exchange (R141). -/
  | clear
  /-- PHASE 3: step b, first part (R142). -/
  | startPre
  /-- PHASE 4: step b, second part (R142). -/
  | startLow
  /-- PHASE 5: step b, third part, and step c (R142, R143). -/
  | startRel
  /-- PHASE 6: the LOW pulse of step d (R144). -/
  | ackLow
  /-- PHASE 7: the HIGH pulse of step d (R144). -/
  | ackHigh
  /-- PHASE 8: a LOW pulse of step e (R145). -/
  | capLow
  /-- PHASE 9: a HIGH pulse of step e, and step f after the last (R145, R146). -/
  | capHigh
  /-- PHASE 10: steps g and h for one bit (R147, R148). -/
  | decode
  /-- PHASE 11: step i (R149). -/
  | csum
  /-- PHASE 12: build and deliver the response (R191, R92). -/
  | respond
  /-- FUNC 0b0000: the protocol exchange (R140). -/
  | xfer
  /-- FUNC 0b001l: the Pulse Timer (R170). -/
  | expect (level : Level)
  /-- FUNC 0b0100: the temperature (R189). -/
  | ctemp
  /-- FUNC 0b0110: the humidity (R190). -/
  | chum
  /-- FUNC 0b1000: the Reading (R191). -/
  | mkreading
deriving DecidableEq, Repr, Inhabited

end Sys2Proof
end

