-- ==== Sys2Proof/Config.lean ====
section
/-! DEFINITION. The constants the source fixes (R8), the parameters it leaves open (R9) and the free values: the
answers of the line and of the clock, which the block does not choose (R54, R55, R67, R68). -/

namespace Sys2Proof

/-- The seven open values of the Specs record (R32, R91, 92_eei_decisions.md D23). `name` is the 8-byte field of
bits 287:224, its first character in the high byte. -/
structure SpecsParams where
  name : BitVec 64
  tMin : F32
  tMax : F32
  tRes : F32
  hMin : F32
  hMax : F32
  hRes : F32
deriving DecidableEq, Repr, Inhabited

/-- The configuration of one block (R9). `MAXC` is held less one, so that 1 ≤ `MAXC` ≤ 2^32 − 1 (R57) holds of
every value of this type and no count can equal the sentinel. DESIGN CHOICE, safe (log 2): `MAXC` itself is the
parameter, as R9 and R57 allow. -/
structure Config where
  maxcLessOne : Fin 4294967295
  prePullupMs : Nat
  specs       : SpecsParams
deriving DecidableEq, Repr, Inhabited

namespace Config

/-- `MAXC`, the Pulse Timer's iteration bound (R9, R57). -/
def maxc (c : Config) : Nat := c.maxcLessOne.val + 1

/-- `UsToCycles(n)` = n × `CYCLES_PER_US` (R57). -/
def usToCycles (cyclesPerUs n : Nat) : Nat := n * cyclesPerUs

/-- Data bits of an exchange (R8). -/
def nbits : Nat := 40
/-- Bytes of a RawFrame (R8). -/
def nbytes : Nat := 5
/-- Durations recorded in an exchange (R8). -/
def ndur : Nat := 80
/-- `EXPECT` invocations of an exchange that passes the acknowledgment (R8). -/
def nexpect : Nat := 82
/-- `MIN_INTERVAL_MS` (R8). -/
def minIntervalMs : Word := 2000
/-- `START_LOW_MS` (R8). -/
def startLowMs : Nat := 20
/-- `SETTLE_US` (R8, exactly 55 by D8). -/
def settleUs : Nat := 55
/-- `TIMEOUT_US` (R8). -/
def timeoutUs : Nat := 1000
/-- `FRAC_MASK` (R8). -/
def fracMask : Byte := 0x0F
/-- `SIGN_MASK` (R8). -/
def signMask : Byte := 0x80
/-- The TIMEOUT sentinel (R9, R88). -/
def timeout : Word := 0xFFFFFFFF

/-- The configuration of the block that is running after reset: a FREE VALUE of the platform (log 2). Nothing
constrains it but its type; no proof can see it. -/
opaque platform : Config

/-- FREE VALUE: the answer of the `n`-th `LineRead()` that no script of the state covers (R54, R67; log 3). -/
opaque lineAnswer : Nat → Level

/-- FREE VALUE: the milliseconds by which the true time has moved on at the `n`-th `NowMs()` that no script of the
state covers (R55, R68; log 4). A natural number, so the unwrapped clock never goes back. -/
opaque clockAdvance : Nat → Nat

end Config

end Sys2Proof
end

