-- ==== Sys2Proof/WellFormed.lean ====
section
/-! DEFINITION. Well-formedness. An instruction is well formed by its types (the pin is 8 bits, R82; the level is
LOW or HIGH, R93). The configuration's parameters are checked here (93_implementation_defined.md U11: an instance
with `MAXC` = 0 or `MAXC` > 2^32 − 1 is refused; R91: the name is ASCII padded with 0x00). -/

namespace Sys2Proof

/-- The operands of `i` fit its encoding (R82, R83, R95). -/
def Instr.wellFormed : Instr → Bool
  | .construct pin => decide (pin.toNat < 2 ^ 8)
  | .begin => true
  | .read => true
  | .getspecs => true
  | .idle => true
  | .gate => true
  | .clear => true
  | .startPre => true
  | .startLow => true
  | .startRel => true
  | .ackLow => true
  | .ackHigh => true
  | .capLow => true
  | .capHigh => true
  | .decode => true
  | .csum => true
  | .respond => true
  | .xfer => true
  | .expect level => decide (level = .low ∨ level = .high)
  | .ctemp => true
  | .chum => true
  | .mkreading => true

/-- The parameters of an instance as an integrator writes them, before any check (R9). -/
structure Params where
  maxc        : Nat
  prePullupMs : Nat
  specs       : SpecsParams
deriving DecidableEq, Repr

namespace Params

/-- 1 ≤ `MAXC` ≤ 2^32 − 1 (R57). -/
def maxcOk (p : Params) : Bool := decide (1 ≤ p.maxc ∧ p.maxc ≤ 2 ^ 32 - 1)

/-- The bytes of a name, first character first (R91). -/
def nameBytes (n : BitVec 64) : List Byte :=
  [n.extractLsb' 56 8, n.extractLsb' 48 8, n.extractLsb' 40 8, n.extractLsb' 32 8,
   n.extractLsb' 24 8, n.extractLsb' 16 8, n.extractLsb' 8 8, n.extractLsb' 0 8]

/-- After the characters only padding: the bytes that follow a 0x00 are 0x00. -/
def padded : List Byte → Bool
  | [] => true
  | b :: rest => if b = 0 then rest.all (· == 0) else padded rest

/-- Up to 8 ASCII bytes, padded with 0x00 (R91). -/
def nameOk (p : Params) : Bool :=
  (nameBytes p.specs.name).all (fun b => decide (b.toNat < 128)) && padded (nameBytes p.specs.name)

/-- At port level `dly_n` has 16 bits, so `PRE_PULLUP_MS` is at most 65535 there (R51). The rules, which are written
over the primitives, need no such bound. -/
def portOk (p : Params) : Bool := decide (p.prePullupMs ≤ 65535)

/-- The instance is well formed (U11, R57, R91). -/
def wellFormed (p : Params) : Bool := p.maxcOk && p.nameOk

/-- `MAXC` = `UsToCycles(TIMEOUT_US)` for a platform with `CYCLES_PER_US` iterations per microsecond (R9, R57). -/
def ofCyclesPerUs (cyclesPerUs prePullupMs : Nat) (specs : SpecsParams) : Params :=
  { maxc := Config.usToCycles cyclesPerUs Config.timeoutUs, prePullupMs := prePullupMs, specs := specs }

/-- The configuration with these parameters; an ill-formed instance is refused (U11). -/
def toConfig (p : Params) : Option Config :=
  if p.wellFormed then
    if h : p.maxc - 1 < 4294967295 then
      some { maxcLessOne := ⟨p.maxc - 1, h⟩, prePullupMs := p.prePullupMs, specs := p.specs }
    else none
  else none

end Params

end Sys2Proof
end

