-- ==== Sys2Proof/Decode.lean ====
section
/-! DEFINITION. Decoding and encoding. Three code spaces (30_encoding.md): the 16-bit command word (R80 to R83), the
4-bit phase code (R27, R95) and the 4-bit function-select code (R95). Every decoder is total and rejects by name. -/

namespace Sys2Proof

/-- Why a code is rejected. -/
inductive DecodeError where
  /-- `op` = 0x0 or 0x5 to 0xF (R83). -/
  | reservedOpcode (op : BitVec 4)
  /-- bits 11:8 of a command word are not 0 (R80, R83). -/
  | nonZeroZ (z : BitVec 4)
  /-- `BEGIN`, `READ` or `GETSPECS` with `arg` ≠ 0 (R83). -/
  | nonZeroArg (arg : BitVec 8)
  /-- phase code 13, 14 or 15 (R27). -/
  | reservedPhase (code : BitVec 4)
  /-- a function-select code no function has (R95). -/
  | unusedFunc (code : BitVec 4)
deriving DecidableEq, Repr

/-- A bit pattern in one of the three formats of the opcode table. -/
inductive Code where
  | cmd (w : CmdWord)
  | phase (c : BitVec 4)
  | func (c : BitVec 4)
deriving DecidableEq, Repr

/-- `op`, bits 15:12 of a command word (R80). -/
def cmdOp (w : CmdWord) : BitVec 4 := w.extractLsb' 12 4

/-- `z`, bits 11:8 of a command word (R80). -/
def cmdZ (w : CmdWord) : BitVec 4 := w.extractLsb' 8 4

/-- `arg`, bits 7:0 of a command word; `CONSTRUCT`'s pin is `zext_8(w[7:0])` (R80, R82). -/
def cmdArg (w : CmdWord) : BitVec 8 := w.extractLsb' 0 8

/-- A command without an operand: bits 11:0 must be 0 (R80, R83). -/
def decodePlain (w : CmdWord) (i : Instr) : Except DecodeError Instr :=
  if cmdZ w ≠ 0 then .error (.nonZeroZ (cmdZ w))
  else if cmdArg w ≠ 0 then .error (.nonZeroArg (cmdArg w))
  else .ok i

/-- Decoding of a command word (R81, R82, R83, R97). -/
def decodeCmd (w : CmdWord) : Except DecodeError Instr :=
  if cmdOp w = 0x1 then
    if cmdZ w ≠ 0 then .error (.nonZeroZ (cmdZ w)) else .ok (.construct (cmdArg w))
  else if cmdOp w = 0x2 then decodePlain w .begin
  else if cmdOp w = 0x3 then decodePlain w .read
  else if cmdOp w = 0x4 then decodePlain w .getspecs
  else .error (.reservedOpcode (cmdOp w))

/-- The phase codes of R27. -/
def phaseCode : Phase → BitVec 4
  | .idle => 0
  | .gate => 1
  | .clear => 2
  | .startPre => 3
  | .startLow => 4
  | .startRel => 5
  | .ackLow => 6
  | .ackHigh => 7
  | .capLow => 8
  | .capHigh => 9
  | .decode => 10
  | .csum => 11
  | .respond => 12

/-- The phase a code stands for; none for the reserved codes 13 to 15 (R27). -/
def phaseOfCode (c : BitVec 4) : Option Phase :=
  if c = 0 then some .idle
  else if c = 1 then some .gate
  else if c = 2 then some .clear
  else if c = 3 then some .startPre
  else if c = 4 then some .startLow
  else if c = 5 then some .startRel
  else if c = 6 then some .ackLow
  else if c = 7 then some .ackHigh
  else if c = 8 then some .capLow
  else if c = 9 then some .capHigh
  else if c = 10 then some .decode
  else if c = 11 then some .csum
  else if c = 12 then some .respond
  else none

/-- The sequencer step a phase performs (R95, R153). -/
def phaseInstr : Phase → Instr
  | .idle => .idle
  | .gate => .gate
  | .clear => .clear
  | .startPre => .startPre
  | .startLow => .startLow
  | .startRel => .startRel
  | .ackLow => .ackLow
  | .ackHigh => .ackHigh
  | .capLow => .capLow
  | .capHigh => .capHigh
  | .decode => .decode
  | .csum => .csum
  | .respond => .respond

/-- Decoding of a phase code (R27, R95). -/
def decodePhase (c : BitVec 4) : Except DecodeError Instr :=
  match phaseOfCode c with
  | some p => .ok (phaseInstr p)
  | none => .error (.reservedPhase c)

/-- The level a function-select code's bit `l` stands for (R93, R95). -/
def levelOfBit (b : Bool) : Level := if b then .high else .low

/-- LOW = 0, HIGH = 1 (R93). -/
def levelBit : Level → Bool
  | .low => false
  | .high => true

/-- Decoding of a function-select code {`fn`[2:0], `l`} (R95). -/
def decodeFunc (c : BitVec 4) : Except DecodeError Instr :=
  if c = 0b0000 then .ok .xfer
  else if c.extractLsb' 1 3 = 0b001 then .ok (.expect (levelOfBit (c.getLsbD 0)))
  else if c = 0b0100 then .ok .ctemp
  else if c = 0b0110 then .ok .chum
  else if c = 0b1000 then .ok .mkreading
  else .error (.unusedFunc c)

/-- The decoder: total on every bit pattern of every format. -/
def decode : Code → Except DecodeError Instr
  | .cmd w => decodeCmd w
  | .phase c => decodePhase c
  | .func c => decodeFunc c

/-- The encoder, from the tables of R81, R27 and R95. -/
def encode : Instr → Code
  | .construct pin => .cmd ((0x10 : BitVec 8) ++ pin)
  | .begin => .cmd 0x2000
  | .read => .cmd 0x3000
  | .getspecs => .cmd 0x4000
  | .idle => .phase 0
  | .gate => .phase 1
  | .clear => .phase 2
  | .startPre => .phase 3
  | .startLow => .phase 4
  | .startRel => .phase 5
  | .ackLow => .phase 6
  | .ackHigh => .phase 7
  | .capLow => .phase 8
  | .capHigh => .phase 9
  | .decode => .phase 10
  | .csum => .phase 11
  | .respond => .phase 12
  | .xfer => .func 0b0000
  | .expect level => .func ((0b001 : BitVec 3) ++ BitVec.ofBool (levelBit level))
  | .ctemp => .func 0b0100
  | .chum => .func 0b0110
  | .mkreading => .func 0b1000

/-- The three formats of spec/opcode_table.json. -/
inductive Format where
  | cmd
  | phase
  | func
deriving DecidableEq, Repr

/-- A row of the opcode table: a code of that format stands for the row's instruction exactly when
`code & mask = match` (R81). -/
structure OpcodeRow where
  format : Format
  mask   : Nat
  value  : Nat
deriving DecidableEq, Repr

/-- The row of each instruction (R81, R27, R95). -/
def opcodeRow : Instr → OpcodeRow
  | .construct _ => ⟨.cmd, 0xFF00, 0x1000⟩
  | .begin => ⟨.cmd, 0xFFFF, 0x2000⟩
  | .read => ⟨.cmd, 0xFFFF, 0x3000⟩
  | .getspecs => ⟨.cmd, 0xFFFF, 0x4000⟩
  | .idle => ⟨.phase, 0xF, 0x0⟩
  | .gate => ⟨.phase, 0xF, 0x1⟩
  | .clear => ⟨.phase, 0xF, 0x2⟩
  | .startPre => ⟨.phase, 0xF, 0x3⟩
  | .startLow => ⟨.phase, 0xF, 0x4⟩
  | .startRel => ⟨.phase, 0xF, 0x5⟩
  | .ackLow => ⟨.phase, 0xF, 0x6⟩
  | .ackHigh => ⟨.phase, 0xF, 0x7⟩
  | .capLow => ⟨.phase, 0xF, 0x8⟩
  | .capHigh => ⟨.phase, 0xF, 0x9⟩
  | .decode => ⟨.phase, 0xF, 0xA⟩
  | .csum => ⟨.phase, 0xF, 0xB⟩
  | .respond => ⟨.phase, 0xF, 0xC⟩
  | .xfer => ⟨.func, 0xF, 0x0⟩
  | .expect _ => ⟨.func, 0xE, 0x2⟩
  | .ctemp => ⟨.func, 0xF, 0x4⟩
  | .chum => ⟨.func, 0xF, 0x6⟩
  | .mkreading => ⟨.func, 0xF, 0x8⟩

/-- The format of a code. -/
def codeFormat : Code → Format
  | .cmd _ => .cmd
  | .phase _ => .phase
  | .func _ => .func

/-- The bits of a code as one number, bit 0 the least significant. -/
def codeBits : Code → Nat
  | .cmd w => w.toNat
  | .phase c => c.toNat
  | .func c => c.toNat

/-- The code lies in the row: same format, and `code & mask = match`. -/
def inRow (c : Code) (r : OpcodeRow) : Bool :=
  codeFormat c == r.format && (codeBits c &&& r.mask) == r.value

/-- The instruction the decoder reads from `nbits` bits `w` numbered as the opcode table numbers them. A command
word has 16 bits. A shorter code is read as a phase code, the one of the two 4-bit codes that a state element holds
(R27, R95; log 10): the six function-select codes 0, 2, 3, 4, 6 and 8 are also phase codes. -/
def decodeTableWord (nbits w : Nat) : Option Instr :=
  if nbits = 16 then
    if w < 2 ^ 16 then (decodeCmd (BitVec.ofNat 16 w)).toOption else none
  else if nbits ≤ 8 then
    if w < 2 ^ 4 then (decodePhase (BitVec.ofNat 4 w)).toOption else none
  else none

end Sys2Proof
end

