-- ==== Sys2Proof/Machine/State.lean ====
section
/-! DEFINITION. The state of the machine as plain data: every element of 10_state.md rule R20, the inputs the host and
the environment give the block, the event trace of R12, and the model's own fields named in INVENTORY.md. -/

namespace Sys2Proof.Machine

/-- The pin's configured mode (R30). -/
inductive PinMode where
  | unset
  | output
  | inputPullup
deriving DecidableEq, Repr, Inhabited

/-- One invocation of a primitive, with its argument or the value it returned (R12). -/
inductive Event where
  | mode (m : PinMode)
  | write (v : Level)
  | read (v : Level)
  | now (t : Word)
  | delayMs (n : Nat)
  | delayUs (n : Nat)
  | critEnter
  | critExit
deriving DecidableEq, Repr

/-- A Reading (R31, R89): two optional binary32 numbers and a validity flag. "No value" is the absent case (R90). -/
structure Reading where
  temperature : Option F32
  humidity    : Option F32
  isValid     : Bool
deriving DecidableEq, Repr

/-- The Specs record (R32, R91). -/
structure Specs where
  name       : BitVec 64
  tMin       : F32
  tMax       : F32
  tRes       : F32
  hMin       : F32
  hMax       : F32
  hRes       : F32
  minDelayMs : Word
deriving DecidableEq, Repr

/-- The response record (R31, R92): status ERR, or status OK with what the command returns. -/
inductive Response where
  | err
  | ok
  | reading (r : Reading)
  | specs (s : Specs)
deriving DecidableEq, Repr

/-- The command whose response `RESPOND` builds (implied by R153; log 7). -/
inductive Current where
  | refused
  | construct
  | begin
  | read
  | getspecs
deriving DecidableEq, Repr

/-- What a FUNC operation run as an instruction returned (R95; log 8). -/
inductive Returned where
  | none
  | ok (b : Bool)
  | duration (d : Word)
  | float (x : F32)
  | reading (r : Reading)
deriving DecidableEq, Repr

/-- What one step of the machine is (R27; log 1): a whole command, or one phase of the sequencer. -/
inductive Grain where
  | command
  | phase
deriving DecidableEq, Repr

/-- The state. -/
structure State where
  /-- `BOUND` (R26) -/
  bound      : Bool
  /-- `PIN` (R21) -/
  pin        : BitVec 8
  /-- `LAST_MS` (R22) -/
  lastMs     : Word
  /-- `LAST_OK` (R23) -/
  lastOk     : Bool
  /-- `FRAME[0..4]` (R24) -/
  frame      : Vector Byte 5
  /-- `DUR[0..79]` (R25) -/
  dur        : Vector Word 80
  /-- `CNT` (R28) -/
  cnt        : Word
  /-- `PHASE` (R27) -/
  phase      : Phase
  /-- `IDX` (R27) -/
  idx        : Fin 40
  /-- `CRIT` (R29) -/
  crit       : Bool
  /-- `MODE` (R30) -/
  mode       : PinMode
  /-- `DRV` (R30) -/
  drv        : Level
  /-- `RSP` (R31) -/
  rsp        : Response
  /-- port `rsp_valid`: the last step delivered a response (R51; log 14) -/
  rspValid   : Bool
  /-- the command in progress, or the last one (log 7) -/
  cur        : Current
  /-- the value of the FUNC operation last run as an instruction (log 8) -/
  ret        : Returned
  /-- what a step is (log 1) -/
  grain      : Grain
  /-- the configuration (R9; log 2); no step writes it -/
  cfg        : Config
  /-- port `rst`: a hardware reset is due (R240; log 9) -/
  rst        : Bool
  /-- the words the host will present on the command port, head first (R51, R110; log 11) -/
  cmds       : List CmdWord
  /-- scripted answers of the next `LineRead()`s (R54; log 3) -/
  line       : List Level
  /-- free answers of the line drawn so far (log 3) -/
  lineDraws  : Nat
  /-- the true, unwrapped time at the last `NowMs()`, in milliseconds (R55; log 4) -/
  time       : Nat
  /-- scripted advances of the true time before the next `NowMs()`s (R55; log 4) -/
  clock      : List Nat
  /-- free advances of the clock drawn so far (log 4) -/
  clockDraws : Nat
  /-- the event trace, oldest first (R12; log 5) -/
  trace      : List Event
deriving DecidableEq, Repr

/-- What stops the machine with a fault: nothing. The block has no trap mechanism, a failure of the exchange completes
the `READ` normally (R218, R219), every index is in range by its type and every phase code is a phase (log 13). So
this type has no constructor; no meaning raises a fault. -/
inductive Fault
deriving DecidableEq, Repr

/-- Why an instruction has no meaning. -/
inductive Refusal where
  /-- Raised by `exec` for an instruction of the opcode table that has no meaning yet; safe, because the run stops.
  No arm of `exec` raises it now. -/
  | notModelled (mnemonic : String)
deriving DecidableEq, Repr

/-- The machine right after hardware reset (R35, R240). `dur`, `cnt`, `idx`, `drv` and `rsp` are "unspecified" there:
DESIGN CHOICE values, unsafe (log 6). `cur`, `ret` and `grain` are the model's own (log 7, 8, 1). The host presents no
word and the environment has no script (log 3, 4, 11). -/
def State.reset : State :=
  { bound := false
    pin := 0
    lastMs := 0
    lastOk := false
    frame := Vector.replicate 5 0
    dur := Vector.replicate 80 0
    cnt := 0
    phase := .idle
    idx := 0
    crit := false
    mode := .unset
    drv := .low
    rsp := .err
    rspValid := false
    cur := .refused
    ret := .none
    grain := .command
    cfg := Config.platform
    rst := false
    cmds := []
    line := []
    lineDraws := 0
    time := 0
    clock := []
    clockDraws := 0
    trace := [] }

end Sys2Proof.Machine
end

