-- ==== Sys2Proof/Machine/Operands.lean ====
section
/-! DEFINITION. The operand forms: the fields of `FRAME[3]` (R86), the indices of the two durations of a bit (R25, R87),
the place of a wire bit in the frame (R61, R85, R148), and a bit written into a byte. -/

namespace Sys2Proof.Machine

/-- `sign`, bit 7 of `FRAME[3]` (R86): `FRAME[3] & 0x80 ≠ 0`. -/
def frameSign (f : Vector Byte 5) : Bool := (f[3] &&& Config.signMask) != 0

/-- `tfrac`, bits 3:0 of `FRAME[3]` (R86): `FRAME[3] & 0x0F`. -/
def frameFrac (f : Vector Byte 5) : Byte := f[3] &&& Config.fracMask

/-- The LOW duration of bit `i`, `DUR[2i]` (R25). -/
def durLow (d : Vector Word 80) (i : Fin 40) : Word := d[2 * i.val]

/-- The HIGH duration of bit `i`, `DUR[2i+1]` (R25). -/
def durHigh (d : Vector Word 80) (i : Fin 40) : Word := d[2 * i.val + 1]

/-- `DUR[2i] <- v` (R145). -/
def setDurLow (d : Vector Word 80) (i : Fin 40) (v : Word) : Vector Word 80 := d.set (2 * i.val) v

/-- `DUR[2i+1] <- v` (R145). -/
def setDurHigh (d : Vector Word 80) (i : Fin 40) (v : Word) : Vector Word 80 := d.set (2 * i.val + 1) v

/-- `x` with its bit `k` replaced by `b`. -/
def setBit (x : Byte) (k : Nat) (b : Bool) : Byte :=
  (x &&& ~~~((1 : Byte) <<< k)) ||| (if b then (1 : Byte) <<< k else 0)

/-- `FRAME[i div 8][7 − (i mod 8)] <- b` (R148). -/
def packBit (f : Vector Byte 5) (i : Fin 40) (b : Bool) : Vector Byte 5 :=
  f.set (i.val / 8) (setBit f[i.val / 8] (7 - i.val % 8) b)

/-- Wire bit `i` of a frame (R61, R85): `FRAME[i div 8][7 − (i mod 8)]`. -/
def wireBit (f : Vector Byte 5) (i : Fin 40) : Bool := f[i.val / 8].getLsbD (7 - i.val % 8)

/-- The frame as one 40-bit number {`FRAME[0]`, …, `FRAME[4]`} (R85). -/
def frameNumber (f : Vector Byte 5) : BitVec 40 := f[0] ++ f[1] ++ f[2] ++ f[3] ++ f[4]

/-- The Specs record of the block (R32, R91): the seven open values and `min_delay_ms` = 2000 (D23). -/
def specsRecord (c : Config) : Specs :=
  { name := c.specs.name, tMin := c.specs.tMin, tMax := c.specs.tMax, tRes := c.specs.tRes,
    hMin := c.specs.hMin, hMax := c.specs.hMax, hRes := c.specs.hRes,
    minDelayMs := Config.minIntervalMs }

end Sys2Proof.Machine
end

