-- ==== Sys2Proof/Machine/Flags.lean ====
section
/-! DEFINITION. The conditions the block computes: the interval gate (R117, R119), the sentinel test and the bit
comparison of `DECODE` (R147), and the checksum that becomes `LAST_OK` (R149). -/

namespace Sys2Proof.Machine

/-- The two outcomes of the interval gate, exposed as R119 asks. -/
inductive Path where
  | cached
  | fresh
deriving DecidableEq, Repr

/-- `elapsed` = (`t` − `LAST_MS`) mod 2^32 (R117). -/
def elapsed (t lastMs : Word) : Word := t - lastMs

/-- The interval gate: cached exactly when `elapsed` < 2000, an unsigned comparison (R117, R119). -/
def gate (t lastMs : Word) : Path :=
  if (elapsed t lastMs).toNat < Config.minIntervalMs.toNat then .cached else .fresh

/-- The seed `BEGIN` writes: (`t` − `MIN_INTERVAL_MS`) mod 2^32 (R112). -/
def seed (t : Word) : Word := t - Config.minIntervalMs

/-- The forty bit indices in ascending order (R145, R147). -/
def bitIndices : List (Fin 40) := List.finRange 40

/-- Some element of `DUR` is the sentinel: an equality test, never a comparison of magnitudes (R88, R147). -/
def anyTimeout (d : Vector Word 80) : Bool :=
  bitIndices.any (fun i => durLow d i == Config.timeout || durHigh d i == Config.timeout)

/-- The value of bit `i`: 1 exactly when its HIGH duration exceeds its LOW duration, unsigned and strict (R147). -/
def bitValue (d : Vector Word 80) (i : Fin 40) : Bool := decide ((durLow d i).toNat < (durHigh d i).toNat)

/-- (`FRAME[0]` + `FRAME[1]` + `FRAME[2]` + `FRAME[3]`) mod 256 (R149). -/
def frameSum (f : Vector Byte 5) : Nat := (f[0].toNat + f[1].toNat + f[2].toNat + f[3].toNat) % 256

/-- The checksum test (R149). -/
def checksumOk (f : Vector Byte 5) : Bool := f[4].toNat == frameSum f

end Sys2Proof.Machine
end

