-- ==== Sys2Proof/Machine/Ops.lean ====
section
/-! DEFINITION. The named operations: the environment primitives (R52 to R58), delivery of a response (R92, R153), the
block's one error, refusal (R215), which stands where a processor takes an exception, and hardware reset (R240). -/

namespace Sys2Proof.Machine

namespace State

/-- Append one event to the trace (R12, R59). -/
def emit (s : State) (e : Event) : State := { s with trace := s.trace ++ [e] }

/-- `PinMode(m)`: `MODE <- m`, event `Mode(m)` (R52). -/
def pinMode (s : State) (m : PinMode) : State := { s.emit (.mode m) with mode := m }

/-- `LineWrite(v)`: `DRV <- v`, event `Write(v)` (R53). -/
def lineWrite (s : State) (v : Level) : State := { s.emit (.write v) with drv := v }

/-- `DelayMs(n)`: event only (R56; log 17). -/
def delayMs (s : State) (n : Nat) : State := s.emit (.delayMs n)

/-- `DelayUs(n)`: event only (R56; log 17). -/
def delayUs (s : State) (n : Nat) : State := s.emit (.delayUs n)

/-- `CritEnter()`: `CRIT <- 1`, event `CritEnter` (R58). -/
def critEnter (s : State) : State := { s.emit .critEnter with crit := true }

/-- `CritExit()`: `CRIT <- 0`, event `CritExit` (R58). -/
def critExit (s : State) : State := { s.emit .critExit with crit := false }

/-- The environment's next answer of the line: the script's head, else a free value (R54, R67; log 3). -/
def lineAnswer (s : State) : Level :=
  match s.line with
  | v :: _ => v
  | [] => Config.lineAnswer s.lineDraws

/-- `LineRead()`: consumes one answer, event `Read(v)` (R54). The answer is the environment's in every pin mode
(93_implementation_defined.md U6; log 15). -/
def lineRead (s : State) : Level × State :=
  let v := s.lineAnswer
  match s.line with
  | _ :: rest => (v, { s.emit (.read v) with line := rest })
  | [] => (v, { s.emit (.read v) with lineDraws := s.lineDraws + 1 })

/-- The milliseconds by which the true time moves on before the next `NowMs()`: the script's head, else a free value
(R55, R68; log 4). -/
def clockAdvance (s : State) : Nat :=
  match s.clock with
  | d :: _ => d
  | [] => Config.clockAdvance s.clockDraws

/-- The true time the next `NowMs()` samples. -/
def nextTime (s : State) : Nat := s.time + s.clockAdvance

/-- `NowMs()`: the true time modulo 2^32, event `Now(t)` (R55). -/
def nowMs (s : State) : Word × State :=
  let t := BitVec.ofNat 32 s.nextTime
  match s.clock with
  | _ :: rest => (t, { s.emit (.now t) with time := s.nextTime, clock := rest })
  | [] => (t, { s.emit (.now t) with time := s.nextTime, clockDraws := s.clockDraws + 1 })

/-- Deliver the one response of a command and return to `IDLE` (R92, R110, R153). -/
def deliver (s : State) (c : Current) (r : Response) : State :=
  { s with rsp := r, rspValid := true, cur := c, phase := .idle }

/-- Refusal, the block's one error: response `ERR`, no event, no other change (R215). It saves nothing, vectors
nowhere, and the next command is accepted normally. -/
def refuse (s : State) : State := s.deliver .refused .err

/-- Hardware reset (R240): every element of the block at its value of R35, no event, no response; the inputs, the
environment, the trace and the model's own `ret` and `grain` stay (log 9). -/
def hardReset (s : State) : State :=
  { State.reset with
    ret := s.ret
    grain := s.grain
    cfg := s.cfg
    cmds := s.cmds
    line := s.line
    lineDraws := s.lineDraws
    time := s.time
    clock := s.clock
    clockDraws := s.clockDraws
    trace := s.trace }

end State

/-- The outcome every meaning ends in: the block always goes on. -/
abbrev Out := Host.Outcome State Fault Refusal

/-- A command is accepted only while `PHASE` = `IDLE` (R110, R247): otherwise it is not performed and nothing changes
(log 18). -/
def whenIdle (s : State) (run : State → State) : State :=
  if s.phase = .idle then run s else s

/-- `BEGIN`, `READ` and `GETSPECS` are refused while `BOUND` = 0 (R26, R110). -/
def whenBound (s : State) (run : State → State) : State :=
  if s.bound then run s else s.refuse

end Sys2Proof.Machine
end

