-- ==== Sys2Proof/Machine/Float32.lean ====
section
/-! DEFINITION. Binary32 arithmetic as R185 to R187 fix it: exact integer arithmetic on multiples of a power of two, then
one rounding to nearest, ties to even. -/

namespace Sys2Proof.Machine

/-- The sign bit. -/
def f32Neg (x : F32) : Bool := x.getLsbD 31

/-- The biased exponent, bits 30:23. -/
def f32Exp (x : F32) : Nat := x.toNat / 2 ^ 23 % 256

/-- The fraction, bits 22:0. -/
def f32Frac (x : F32) : Nat := x.toNat % 2 ^ 23

/-- The magnitude of a finite number in units of 2^−149, the least subnormal. The patterns with exponent 255 (infinities
and NaNs) occur in no operation of the converter (R185, R194); the formula gives them a number too (log 12). -/
def f32Mag (x : F32) : Nat :=
  if f32Exp x = 0 then f32Frac x else (2 ^ 23 + f32Frac x) * 2 ^ (f32Exp x - 1)

/-- The value of a finite number in units of 2^−149. -/
def f32Val (x : F32) : Int := if f32Neg x then -(f32Mag x : Int) else (f32Mag x : Int)

/-- `m / 2^q` rounded to nearest, ties to even. -/
def roundShift (m q : Nat) : Nat :=
  let lo := m / 2 ^ q
  let r := m % 2 ^ q
  if 2 ^ q < 2 * r ∨ (2 * r = 2 ^ q ∧ lo % 2 = 1) then lo + 1 else lo

/-- The number of bits of `m`. -/
def bitLength (m : Nat) : Nat := if m = 0 then 0 else Nat.log2 m + 1

/-- The position of the last kept bit of a magnitude `m` in units of 2^−(149+e): 24 significant bits, and none below
2^−149. -/
def roundPos (m e : Nat) : Nat := max (bitLength m - 24) e

/-- The pattern of a magnitude `m` in units of 2^−(149+e), rounded once to nearest, ties to even (R185). The biased
exponent and the significand are added, so that a carry out of the significand moves the exponent, and a subnormal has
exponent 0; above the largest finite number the pattern is that of infinity. -/
def roundMag (m e : Nat) : Nat :=
  min ((roundPos m e - e) * 2 ^ 23 + roundShift m (roundPos m e)) 0x7F800000

/-- A rounded magnitude with its sign bit. -/
def f32Pack (neg : Bool) (m e : Nat) : F32 :=
  BitVec.ofNat 32 (if neg then 2 ^ 31 + roundMag m e else roundMag m e)

/-- `I2F(n)`: an unsigned 8-bit integer as a binary32 number, exact (R187). -/
def i2f (n : Byte) : F32 := f32Pack false (n.toNat * 2 ^ 149) 0

/-- `FMUL(a, b)`: the exact product rounded once (R187). -/
def fmul (a b : F32) : F32 := f32Pack (f32Neg a ^^ f32Neg b) (f32Mag a * f32Mag b) 149

/-- `FADD(a, b)`: the exact sum rounded once; an exact zero is +0 (R187). -/
def fadd (a b : F32) : F32 := f32Pack (decide (f32Val a + f32Val b < 0)) (f32Val a + f32Val b).natAbs 0

/-- The number with the opposite sign. -/
def fneg (a : F32) : F32 := a ^^^ 0x80000000

/-- `FSUB(a, b)` = `FADD(a, −b)` (R187). -/
def fsub (a b : F32) : F32 := fadd a (fneg b)

/-- `TENTH`, the binary32 number nearest to one tenth (R186). -/
def tenth : F32 := 0x3DCCCCCD

/-- −1.0 (R189). -/
def minusOne : F32 := 0xBF800000

end Sys2Proof.Machine
end

