-- ==== Sys2Proof/Machine/Converter.lean ====
section
/-! DEFINITION. The Bit Decoder / Converter (43_converter.md): `CTEMP`, `CHUM`, `MKREADING`, pure and total, and their
meanings as instructions, which leave the value in `ret` (log 8). -/

namespace Sys2Proof.Machine

/-- The integer part of the temperature: `FRAME[2]`, or −1 − `FRAME[2]` when the sign flag is set (R189). -/
def tempInteger (f : Vector Byte 5) : F32 :=
  if frameSign f then fsub minusOne (i2f f[2]) else i2f f[2]

/-- `CTEMP(FRAME)` (R189): the fraction is added whatever the sign, and the sum is rounded once. -/
def ctemp (f : Vector Byte 5) : F32 := fadd (tempInteger f) (fmul (i2f (frameFrac f)) tenth)

/-- `CHUM(FRAME)` (R190): the whole of `FRAME[1]` is used. -/
def chum (f : Vector Byte 5) : F32 := fadd (i2f f[0]) (fmul (i2f f[1]) tenth)

/-- The Reading without values (R90, R191). -/
def invalidReading : Reading := { temperature := none, humidity := none, isValid := false }

/-- `MKREADING(ok, FRAME)` (R191): the converter is not invoked when `ok` = 0. -/
def mkReading (ok : Bool) (f : Vector Byte 5) : Reading :=
  if ok then { temperature := some (ctemp f), humidity := some (chum f), isValid := true }
  else invalidReading

/-- Meaning of `CTEMP` (R189) on the frame of the state. -/
def execCtemp (s : State) : Out := .next { s with ret := .float (ctemp s.frame) }

/-- Meaning of `CHUM` (R190) on the frame of the state. -/
def execChum (s : State) : Out := .next { s with ret := .float (chum s.frame) }

/-- Meaning of `MKREADING` (R191) on `LAST_OK` and `FRAME`, the operands of its only invocation (R113). -/
def execMkreading (s : State) : Out := .next { s with ret := .reading (mkReading s.lastOk s.frame) }

end Sys2Proof.Machine
end

