-- ==== Sys2Proof/Machine/PulseTimer.lean ====
section
/-! DEFINITION. The Pulse Timer (42_pulse_timer.md): `EXPECT`. -/

namespace Sys2Proof.Machine

/-- The loop of `EXPECT` with `left` = `MAXC` − `CNT` iterations left (R170): sample; at another level return `CNT`; else
count; when `CNT` reaches `MAXC`, that is when none is left, return `TIMEOUT` without another sample (R172). -/
def expectLoop : (left : Nat) → Level → State → Word × State
  | 0, _, s => (Config.timeout, s)
  | left + 1, level, s =>
    let r := s.lineRead
    if r.1 ≠ level then (r.2.cnt, r.2)
    else expectLoop left level { r.2 with cnt := r.2.cnt + 1 }

/-- `EXPECT(level)` (R170): `CNT <- 0`, then the loop, bounded by `MAXC` ≥ 1. -/
def expect (level : Level) (s : State) : Word × State :=
  expectLoop s.cfg.maxc level { s with cnt := 0 }

/-- Meaning of `EXPECT level` (R170); the duration is left in `ret` (log 8). -/
def execExpect (level : Level) (s : State) : Out :=
  .next { (expect level s).2 with ret := .duration (expect level s).1 }

end Sys2Proof.Machine
end

