-- ==== Sys2Proof/Machine/Exchange.lean ====
section
/-! DEFINITION. The protocol exchange `XFER`, steps a to i (41_protocol_exchange.md), as one function from state to state,
built from the parts the sequencer's phases are built from too. -/

namespace Sys2Proof.Machine

/-- Step a, `CLEAR`: `FRAME[k] <- 0x00` (R141). -/
def clearFrame (s : State) : State := { s with frame := Vector.replicate 5 0 }

/-- Step b, phase `START_PRE`: input with pull-up, "briefly" (R142). -/
def startPrePart (s : State) : State := (s.pinMode .inputPullup).delayMs s.cfg.prePullupMs

/-- Step b, phase `START_LOW`: output, LOW, 20 ms (R142). -/
def startLowPart (s : State) : State := ((s.pinMode .output).lineWrite .low).delayMs Config.startLowMs

/-- Step b, phase `START_REL`: release, settle 55 µs (R142). -/
def startRelPart (s : State) : State := (s.pinMode .inputPullup).delayUs Config.settleUs

/-- Step b, `START` (R142). -/
def start (s : State) : State := startRelPart (startLowPart (startPrePart s))

/-- Step d, `ACK` (R144): `EXPECT(HIGH)` is not invoked when `EXPECT(LOW)` timed out. -/
def ack (s : State) : Bool × State :=
  let a0 := expect .low s
  if a0.1 = Config.timeout then (false, a0.2)
  else
    let a1 := expect .high a0.2
    if a1.1 = Config.timeout then (false, a1.2) else (true, a1.2)

/-- `DUR[2i] <- EXPECT(LOW)` (R145). -/
def captureLow (s : State) (i : Fin 40) : State :=
  { (expect .low s).2 with dur := setDurLow s.dur i (expect .low s).1 }

/-- `DUR[2i+1] <- EXPECT(HIGH)` (R145). -/
def captureHigh (s : State) (i : Fin 40) : State :=
  { (expect .high s).2 with dur := setDurHigh s.dur i (expect .high s).1 }

/-- Both durations of bit `i` (R145). -/
def captureBit (s : State) (i : Fin 40) : State := captureHigh (captureLow s i) i

/-- Step e, `CAPTURE` (R145): all 80 `EXPECT`s, whatever they return. `IDX` ends at 0, as in R153. -/
def capture (s : State) : State := { bitIndices.foldl captureBit s with idx := 0 }

/-- Steps g and h for bit `i`: compare and pack (R147, R148). -/
def decodeBit (d : Vector Word 80) (f : Vector Byte 5) (i : Fin 40) : Vector Byte 5 := packBit f i (bitValue d i)

/-- The frame with all forty bits packed (R147, R148). -/
def decodeFrame (d : Vector Word 80) (f : Vector Byte 5) : Vector Byte 5 := bitIndices.foldl (decodeBit d) f

/-- Steps g and h, `DECODE` (R147): every sentinel is tested before any bit is packed (90_conflicts.md C12), so `FRAME`
stays as `CLEAR` left it on a bit timeout. `IDX` ends at 39 when the bits are packed, as in R153. -/
def decodeStep (s : State) : Bool × State :=
  if anyTimeout s.dur then (false, s)
  else (true, { s with frame := decodeFrame s.dur s.frame, idx := 39 })

/-- Steps d to i, after the critical section has opened (R140, R146): `CritExit` on both paths. -/
def xferRest (s : State) : Bool × State :=
  let a := ack s
  if a.1 then
    let d := decodeStep (capture a.2).critExit
    if d.1 then (checksumOk d.2.frame, d.2) else (false, d.2)
  else (false, a.2.critExit)

/-- `XFER()` (R140). -/
def xfer (s : State) : Bool × State := xferRest (start (clearFrame s)).critEnter

/-- Meaning of `XFER` (R140); the result is left in `ret` (log 8). -/
def execXfer (s : State) : Out := .next { (xfer s).2 with ret := .ok (xfer s).1 }

end Sys2Proof.Machine
end

