-- ==== Sys2Proof/Machine/Commands.lean ====
section
/-! DEFINITION. The four host commands (40_driver_commands.md), each performed to completion in one step (R27, R110). -/

namespace Sys2Proof.Machine

/-- The effect of `CONSTRUCT pin` on an unbound block (R111): no I/O. -/
def bindPin (pin : BitVec 8) (s : State) : State := { s with pin := pin, bound := true }

/-- The effect of `BEGIN` on a bound block (R112): the pin mode first, then the clock (D28), then the seed. -/
def beginEffect (s : State) : State :=
  let r := (s.pinMode .inputPullup).nowMs
  { r.2 with lastMs := seed r.1 }

/-- `READ`'s fresh path (R115): `LAST_MS <- t`, then the exchange, then `LAST_OK <- ok`. -/
def readFresh (t : Word) (s : State) : State :=
  let x := xfer { s with lastMs := t }
  { x.2 with lastOk := x.1 }

/-- `READ` up to its response (R113): one sample of the clock, compared and, on the fresh path, stored. -/
def readEffect (s : State) : State :=
  let r := s.nowMs
  match gate r.1 s.lastMs with
  | .cached => r.2
  | .fresh => readFresh r.1 r.2

/-- The response each command delivers (R92, R111 to R116). -/
def responseOf (s : State) : Current → Response
  | .refused => .err
  | .construct => .ok
  | .begin => .ok
  | .read => .reading (mkReading s.lastOk s.frame)
  | .getspecs => .specs (specsRecord s.cfg)

/-- Deliver the response of command `c` (R92, R153). -/
def respondTo (s : State) (c : Current) : State := s.deliver c (responseOf s c)

/-- Meaning of `CONSTRUCT pin` (R111): refused when `BOUND` = 1. -/
def execConstruct (pin : BitVec 8) (s : State) : Out :=
  .next (whenIdle s fun s => if s.bound then s.refuse else respondTo (bindPin pin s) .construct)

/-- Meaning of `BEGIN` (R112). -/
def execBegin (s : State) : Out :=
  .next (whenIdle s fun s => whenBound s fun s => respondTo (beginEffect s) .begin)

/-- Meaning of `READ` (R113 to R115). -/
def execRead (s : State) : Out :=
  .next (whenIdle s fun s => whenBound s fun s => respondTo (readEffect s) .read)

/-- Meaning of `GETSPECS` (R116). -/
def execGetspecs (s : State) : Out :=
  .next (whenIdle s fun s => whenBound s fun s => respondTo s .getspecs)

end Sys2Proof.Machine
end

