-- ==== Sys2Proof/Machine/Phases.lean ====
section
/-! DEFINITION. The thirteen phases of the sequencer, one transition of R153 each. -/

namespace Sys2Proof.Machine

/-- Go to a phase. -/
def goto (s : State) (p : Phase) : State := { s with phase := p }

/-- Go to `RESPOND` with the response of command `c` due. -/
def toRespond (s : State) (c : Current) : State := { s with phase := .respond, cur := c }

/-- Acceptance of a decoded command in `IDLE` (R110, R153): the command's effect, or for `READ` the phase `GATE`. Only
the four host commands can be decoded from a command word (R81). -/
def acceptInstr (s : State) : Instr → State
  | .construct pin => if s.bound then toRespond s .refused else toRespond (bindPin pin s) .construct
  | .begin => if s.bound then toRespond (beginEffect s) .begin else toRespond s .refused
  | .read => if s.bound then { s with phase := .gate, cur := .read } else toRespond s .refused
  | .getspecs => if s.bound then toRespond s .getspecs else toRespond s .refused
  | .idle => toRespond s .refused
  | .gate => toRespond s .refused
  | .clear => toRespond s .refused
  | .startPre => toRespond s .refused
  | .startLow => toRespond s .refused
  | .startRel => toRespond s .refused
  | .ackLow => toRespond s .refused
  | .ackHigh => toRespond s .refused
  | .capLow => toRespond s .refused
  | .capHigh => toRespond s .refused
  | .decode => toRespond s .refused
  | .csum => toRespond s .refused
  | .respond => toRespond s .refused
  | .xfer => toRespond s .refused
  | .expect _ => toRespond s .refused
  | .ctemp => toRespond s .refused
  | .chum => toRespond s .refused
  | .mkreading => toRespond s .refused

/-- Acceptance of a command word: a reserved word is refused (R83, R110). -/
def acceptWord (s : State) (w : CmdWord) : State :=
  match decodeCmd w with
  | .ok i => acceptInstr s i
  | .error _ => toRespond s .refused

/-- Meaning of phase `IDLE` (R110, R153): accept the word the host presents; with none, wait. -/
def execIdle (s : State) : Out :=
  match s.cmds with
  | [] => .next (goto s .idle)
  | w :: rest => .next (acceptWord { s with cmds := rest } w)

/-- Meaning of phase `GATE` (R117, R153). -/
def execGate (s : State) : Out :=
  .next (match gate s.nowMs.1 s.lastMs with
    | .cached => goto s.nowMs.2 .respond
    | .fresh => goto { s.nowMs.2 with lastMs := s.nowMs.1 } .clear)

/-- Meaning of phase `CLEAR` (R141, R153). -/
def execClear (s : State) : Out := .next (goto (clearFrame s) .startPre)

/-- Meaning of phase `START_PRE` (R142, R153). -/
def execStartPre (s : State) : Out := .next (goto (startPrePart s) .startLow)

/-- Meaning of phase `START_LOW` (R142, R153). -/
def execStartLow (s : State) : Out := .next (goto (startLowPart s) .startRel)

/-- Meaning of phase `START_REL` (R142, R143, R153): `CritEnter()` on the transition. -/
def execStartRel (s : State) : Out := .next (goto (startRelPart s).critEnter .ackLow)

/-- An exchange that fails: `LAST_OK <- 0` and on to `RESPOND` (R153, R218). -/
def failExchange (s : State) : State := goto { s with lastOk := false } .respond

/-- Meaning of phase `ACK_LOW` (R144, R153): on a timeout `CritExit()` before the failure (R146). -/
def execAckLow (s : State) : Out :=
  .next (if (expect .low s).1 = Config.timeout then failExchange (expect .low s).2.critExit
    else goto (expect .low s).2 .ackHigh)

/-- Meaning of phase `ACK_HIGH` (R144, R153). -/
def execAckHigh (s : State) : Out :=
  .next (if (expect .high s).1 = Config.timeout then failExchange (expect .high s).2.critExit
    else goto { (expect .high s).2 with idx := 0 } .capLow)

/-- Meaning of phase `CAP_LOW` (R145, R153). -/
def execCapLow (s : State) : Out := .next (goto (captureLow s s.idx) .capHigh)

/-- Meaning of phase `CAP_HIGH` (R145, R146, R153). -/
def execCapHigh (s : State) : Out :=
  .next (if h : s.idx.val < 39 then goto { captureHigh s s.idx with idx := ⟨s.idx.val + 1, by omega⟩ } .capLow
    else goto { (captureHigh s s.idx).critExit with idx := 0 } .decode)

/-- Pack bit `IDX` (R147, R148). -/
def packCurrent (s : State) : State := { s with frame := decodeBit s.dur s.frame s.idx }

/-- Meaning of phase `DECODE` (R147, R153): a sentinel anywhere in `DUR` fails the exchange; else one bit is packed. -/
def execDecode (s : State) : Out :=
  .next (if anyTimeout s.dur then failExchange s
    else if h : s.idx.val < 39 then goto { packCurrent s with idx := ⟨s.idx.val + 1, by omega⟩ } .decode
    else goto (packCurrent s) .csum)

/-- Meaning of phase `CSUM` (R149, R153). -/
def execCsum (s : State) : Out := .next (goto { s with lastOk := checksumOk s.frame } .respond)

/-- Meaning of phase `RESPOND` (R92, R153, R191). -/
def execRespond (s : State) : Out := .next (respondTo s s.cur)

end Sys2Proof.Machine
end

