-- ==== Sys2Proof/Machine/Dispatch.lean ====
section
/-! DEFINITION. One arm per constructor of Instr, each one direct call of its meaning. -/

namespace Sys2Proof.Machine

def exec (i : Instr) (s : State) : Host.Outcome State Fault Refusal :=
  match i with
  -- host commands (format CMD)
  | .construct pin => Sys2Proof.Machine.execConstruct pin s
  | .begin => Sys2Proof.Machine.execBegin s
  | .read => Sys2Proof.Machine.execRead s
  | .getspecs => Sys2Proof.Machine.execGetspecs s
  -- sequencer steps (format PHASE)
  | .idle => Sys2Proof.Machine.execIdle s
  | .gate => Sys2Proof.Machine.execGate s
  | .clear => Sys2Proof.Machine.execClear s
  | .startPre => Sys2Proof.Machine.execStartPre s
  | .startLow => Sys2Proof.Machine.execStartLow s
  | .startRel => Sys2Proof.Machine.execStartRel s
  | .ackLow => Sys2Proof.Machine.execAckLow s
  | .ackHigh => Sys2Proof.Machine.execAckHigh s
  | .capLow => Sys2Proof.Machine.execCapLow s
  | .capHigh => Sys2Proof.Machine.execCapHigh s
  | .decode => Sys2Proof.Machine.execDecode s
  | .csum => Sys2Proof.Machine.execCsum s
  | .respond => Sys2Proof.Machine.execRespond s
  -- internal functions (format FUNC)
  | .xfer => Sys2Proof.Machine.execXfer s
  | .expect level => Sys2Proof.Machine.execExpect level s
  | .ctemp => Sys2Proof.Machine.execCtemp s
  | .chum => Sys2Proof.Machine.execChum s
  | .mkreading => Sys2Proof.Machine.execMkreading s

end Sys2Proof.Machine
end

