-- ==== Sys2Proof/Machine/Fetch.lean ====
section
/-! DEFINITION. What the machine runs next. The block fetches nothing from memory (R65): in `IDLE`, at the grain of
commands, the word on the command port is decoded; otherwise the phase code says which sequencer step is due (R27). -/

namespace Sys2Proof.Machine

/-- What the next step runs and the state it runs on: the command on the port is consumed, and `rsp_valid` is a pulse of
one step (R51; log 1, log 14). -/
def fetch (s : State) : Except DecodeError Instr × State :=
  let s' := { s with rspValid := false }
  match s.grain, s.phase, s.cmds with
  | .command, .idle, w :: rest => (decodeCmd w, { s' with cmds := rest })
  | _, p, _ => (decodePhase (phaseCode p), s')

/-- `s` with the command word `w` next on the port of an idle block, to be performed as a whole (log 11). -/
def placeCommand (s : State) (w : CmdWord) : State :=
  { s with rst := false, grain := .command, phase := .idle, cmds := w :: s.cmds }

/-- `s` with the sequencer in the phase of code `c`, to be performed as one phase (log 11); a reserved code is no phase
and places nothing. -/
def placePhase (s : State) (c : BitVec 4) : State :=
  match phaseOfCode c with
  | some p => { s with rst := false, grain := .phase, phase := p }
  | none => s

end Sys2Proof.Machine
end

