-- ==== Sys2Proof/Machine/Step.lean ====
section
/-! DEFINITION. One step of the machine: a due hardware reset, or the instruction `fetch` finds, or the refusal of a
reserved command word. -/

namespace Sys2Proof.Machine

/-- One step. Reset comes first (R240); a reserved word is refused (R83, R215). -/
def step (s : State) : Host.Outcome State Fault Refusal :=
  if s.rst then .next s.hardReset
  else
    match fetch s with
    | (.ok i, s') => exec i s'
    | (.error _, s') => .next s'.refuse

/-- `s` with the instruction of the table word `w` placed where `step` finds its next instruction (log 10, log 11). -/
def State.withFetchWord (s : State) (nbits w : Nat) : State :=
  if nbits = 16 then placeCommand s (BitVec.ofNat 16 w) else placePhase s (BitVec.ofNat 4 w)

end Sys2Proof.Machine
end

