-- ==== Sys2Proof/Machine/Ports.lean ====
section
/-! DEFINITION. The output ports of R51 as functions of the state and of the events, and the result encodings of R89 to
R93. No rule of another file is written over them. -/

namespace Sys2Proof.Machine

/-- The no-value marker on the port, a quiet NaN (R90). -/
def noValue : F32 := 0x7FC00000

/-- {`isValid`, `temperature`, `humidity`} (R89). -/
def readingWord (r : Reading) : BitVec 65 :=
  BitVec.ofBool r.isValid ++ r.temperature.getD noValue ++ r.humidity.getD noValue

/-- The 288-bit record, `name` in the high bits (R91). -/
def specsWord (s : Specs) : BitVec 288 :=
  s.name ++ s.tMin ++ s.tMax ++ s.tRes ++ s.hMin ++ s.hMax ++ s.hRes ++ s.minDelayMs

/-- `cmd_ready`: 1 exactly when `PHASE` = `IDLE` (R51). -/
def cmdReady (s : State) : Bool := s.phase == .idle

/-- `cmd_valid` (R51). -/
def cmdValid (s : State) : Bool := !s.cmds.isEmpty

/-- `rsp_status`: 0 = `OK`, 1 = `ERR` (R51, R92). -/
def rspStatus : Response → BitVec 1
  | .err => 1
  | .ok => 0
  | .reading _ => 0
  | .specs _ => 0

/-- `rsp_reading`, meaningful for `READ` with status `OK` only (R51, R92). -/
def rspReading : Response → Option (BitVec 65)
  | .err => none
  | .ok => none
  | .reading r => some (readingWord r)
  | .specs _ => none

/-- `rsp_specs`, constant (R51, R91). -/
def rspSpecs (s : State) : BitVec 288 := specsWord (specsRecord s.cfg)

/-- `pin_id` (R51). -/
def pinId (s : State) : BitVec 8 := s.pin

/-- `line_oe`: 1 while `MODE` = `OUTPUT` (R51, R93). -/
def lineOe (s : State) : Bool := s.mode == .output

/-- `line_out`: `DRV` (R51). -/
def lineOut (s : State) : Bool := levelBit s.drv

/-- `line_pu`: 1 while `MODE` = `INPUT_PULLUP` (R51, R93). -/
def linePu (s : State) : Bool := s.mode == .inputPullup

/-- `crit` (R51). -/
def critPort (s : State) : Bool := s.crit

/-- `dly_unit` and `dly_n` of a delay event: 0 = microseconds, 1 = milliseconds (R51, R93). -/
def delayPort : Event → Option (BitVec 1 × BitVec 16)
  | .mode _ => none
  | .write _ => none
  | .read _ => none
  | .now _ => none
  | .delayMs n => some (1, BitVec.ofNat 16 n)
  | .delayUs n => some (0, BitVec.ofNat 16 n)
  | .critEnter => none
  | .critExit => none

end Sys2Proof.Machine
end

