-- ==== Sys2Proof/Safety.lean ====
section
/-! DEFINITION. What counts as a safe state or run, in the terms the statements use: the open timing-critical section
(R252), the checked frame (R33 c), the released line (R251), the order of events (R60), and scripts of the line. -/

namespace Sys2Proof.Safety

open Sys2Proof.Machine

/-- The phases that run inside the timing-critical section: the acknowledgment and the capture (R143). -/
def critOpen : Phase → Bool
  | .idle => false
  | .gate => false
  | .clear => false
  | .startPre => false
  | .startLow => false
  | .startRel => false
  | .ackLow => true
  | .ackHigh => true
  | .capLow => true
  | .capHigh => true
  | .decode => false
  | .csum => false
  | .respond => false

/-- `CRIT` is 1 exactly in those phases; in particular it is 0 in `IDLE` (R252). -/
def CritMatches (s : State) : Prop := s.crit = critOpen s.phase

/-- `LAST_OK` = 1 implies the checksum of `FRAME` holds, except while a new frame is being decoded and checked (R33 c). -/
def FrameChecked (s : State) : Prop :=
  s.lastOk = true → s.phase ≠ .decode → s.phase ≠ .csum → checksumOk s.frame = true

/-- The pin is an output only after `START_LOW` and before `START_REL` (R251). -/
def LineReleased (s : State) : Prop := s.mode = .output → s.phase = .startRel

/-- In every phase that polls the line the pin is an input with pull-up (R54, R170). -/
def PollsAsInput (s : State) : Prop := critOpen s.phase = true → s.mode = .inputPullup

/-- An exchange runs only in a block that is bound (R26). -/
def ExchangeBound (s : State) : Prop := s.phase ≠ .idle → s.phase ≠ .respond → s.bound = true

/-- The seven events of `START`, in order (R142). -/
def startEvents (c : Config) : List Event :=
  [.mode .inputPullup, .delayMs c.prePullupMs, .mode .output, .write .low, .delayMs 20, .mode .inputPullup, .delayUs 55]

/-- Follow `CRIT` through events: a `Read` only inside the section, `CritEnter` and `CritExit` in pairs and never nested
(R58, R60). `none` when an event breaks the order. -/
def critScan : Bool → List Event → Option Bool
  | c, [] => some c
  | c, .read _ :: es => if c then critScan c es else none
  | c, .critEnter :: es => if c then none else critScan true es
  | c, .critExit :: es => if c then critScan false es else none
  | c, .mode _ :: es => critScan c es
  | c, .write _ :: es => critScan c es
  | c, .now _ :: es => critScan c es
  | c, .delayMs _ :: es => critScan c es
  | c, .delayUs _ :: es => critScan c es

/-- The answer the environment gives to the `k`-th `LineRead()` from `s` on (0 = the next): the script, then the free
values (R54, R67). -/
def upcoming (s : State) (k : Nat) : Level :=
  match s.line[k]? with
  | some v => v
  | none => Config.lineAnswer (s.lineDraws + (k - s.line.length))

/-- `s` after `n` more answers of the line have been consumed and `vs` recorded. -/
def consumed (s : State) (n : Nat) (vs : List Level) : State :=
  { s with line := s.line.drop n, lineDraws := s.lineDraws + (n - s.line.length), trace := s.trace ++ vs.map Event.read }

/-- The acknowledgment passes (R144): two pulses, each shorter than the bound, stand at the head of the line's answers. -/
def ackPasses (s : State) : Prop :=
  ∃ a0 a1, a0 < s.cfg.maxc ∧ a1 < s.cfg.maxc ∧
    (∀ k < a0, upcoming s k = .low) ∧ upcoming s a0 = .high ∧
    (∀ k < a1, upcoming s (a0 + 1 + k) = .high) ∧ upcoming s (a0 + 1 + a1) = .low

/-- Some element of `DUR` is the sentinel. -/
def hasTimeout (d : Vector Word 80) : Prop := ∃ k : Fin 80, d[k] = 0xFFFFFFFF

/-- The value the next `NowMs()` returns (R55). -/
def nowOf (s : State) : Word := BitVec.ofNat 32 s.nextTime

/-- `s` after one `NowMs()`: the true time has moved on, one answer is consumed, one event recorded (R55). -/
def sampled (s : State) : State :=
  { s with time := s.nextTime, clock := s.clock.tail,
           clockDraws := s.clockDraws + (1 - s.clock.length),
           trace := s.trace ++ [.now (nowOf s)] }

/-- `s` after one `EXPECT(l)`: only what a poll moves. -/
def polled (s : State) (l : Level) : State :=
  { s with cnt := (expect l s).2.cnt, line := (expect l s).2.line, lineDraws := (expect l s).2.lineDraws,
           trace := (expect l s).2.trace }

/-- `s` with the response `r` of command `c` delivered and nothing else changed. -/
def answered (s : State) (c : Current) (r : Response) : State := { s with rsp := r, rspValid := true, cur := c }

/-- The Reading without values (R90, R191). -/
def noReading : Response := .reading { temperature := none, humidity := none, isValid := false }

/-- The Reading of a frame (R191). -/
def readingOf (f : Vector Byte 5) : Response :=
  .reading { temperature := some (ctemp f), humidity := some (chum f), isValid := true }

/-- The line script that makes the 82 `EXPECT`s of one exchange return `a0`, `a1` and, for each bit, `lo i` and `hi i`
(95_test_vectors.md, from R173). -/
def frameScript (a0 a1 : Nat) (lo hi : Fin 40 → Nat) : List Level :=
  List.replicate a0 .low ++ List.replicate (a1 + 1) .high ++
    bitIndices.flatMap (fun i => List.replicate (lo i + 1) .low ++ List.replicate (hi i + 1) .high) ++ [.low]

/-- A reserved command word (R83). -/
def reservedWord (w : CmdWord) : Prop :=
  (w.extractLsb' 12 4 = 0 ∨ 5 ≤ (w.extractLsb' 12 4).toNat) ∨ w.extractLsb' 8 4 ≠ 0 ∨
    ((2 ≤ (w.extractLsb' 12 4).toNat ∧ (w.extractLsb' 12 4).toNat ≤ 4) ∧ w.extractLsb' 0 8 ≠ 0)

end Sys2Proof.Safety
end

