-- ==== Sys2Proof/Certificates/Slice0/Obligations.lean ====
section
/-! DEFINITION. The statements for the provers. Each docstring names the rule of spec/ it formalises. -/

open Sys2Proof Sys2Proof.Machine Sys2Proof.Safety

/-! ## Encoding and stepping -/

/-- Derived from R81, R82, R83, R27 and R95: the decoder gives `i` for exactly one bit pattern, the one the encoder
writes; every other pattern of every format is rejected or means another instruction. -/
def Obligations.DecodeExactlyEncode : Prop :=
  ∀ (c : Code) (i : Instr), decode c = .ok i ↔ encode i = c

/-- R81, R82: a word `w` selects the row with `w & mask` = `match`; `CONSTRUCT`'s pin is `w[7:0]`. -/
def Obligations.CommandWordSelectsRow : Prop :=
  ∀ (w : CmdWord) (i : Instr), decodeCmd w = .ok i ↔
    (w &&& 0xFF00 = 0x1000 ∧ i = .construct (w.extractLsb' 0 8)) ∨ (w &&& 0xFFFF = 0x2000 ∧ i = .begin) ∨
    (w &&& 0xFFFF = 0x3000 ∧ i = .read) ∨ (w &&& 0xFFFF = 0x4000 ∧ i = .getspecs)

/-- Derived from R81, R27 and R95: no bit pattern lies in two rows of the opcode table, and the decoder gives an
instruction of row `r` exactly for the patterns that lie in `r`. -/
def Obligations.OpcodeRowsDisjointAndDecoded : Prop :=
  (∀ (c : Code) (i j : Instr), inRow c (opcodeRow i) = true → inRow c (opcodeRow j) = true → opcodeRow i = opcodeRow j) ∧
  (∀ (c : Code) (r : OpcodeRow), (∃ i, opcodeRow i = r) →
    (inRow c r = true ↔ ∃ j, decode c = .ok j ∧ opcodeRow j = r))

/-- A few words written out from the tables of R81, R27 and R95 (V1 of 95_test_vectors.md). -/
def Obligations.SampleWordsDecode : Prop :=
  decode (.cmd 0x1004) = .ok (.construct 4) ∧ decode (.cmd 0x10FF) = .ok (.construct 255) ∧
  decode (.cmd 0x2000) = .ok .begin ∧ decode (.cmd 0x3000) = .ok .read ∧ decode (.cmd 0x4000) = .ok .getspecs ∧
  decode (.phase 0b0000) = .ok .idle ∧ decode (.phase 0b1010) = .ok .decode ∧ decode (.phase 0b1100) = .ok .respond ∧
  decode (.func 0b0000) = .ok .xfer ∧ decode (.func 0b0011) = .ok (.expect .high) ∧
  decode (.func 0b0100) = .ok .ctemp ∧ decode (.func 0b1000) = .ok .mkreading

/-- R83: a word is reserved exactly when no command decodes from it, the all-zero word among them; a reserved word is
refused: no state change, no event, response status `ERR`. The word is consumed. At the grain of phases (log 1) the
refusal goes through `RESPOND` (R153). -/
def Obligations.ReservedWordIsRefused : Prop :=
  (∀ w : CmdWord, reservedWord w ↔ ∀ i, decodeCmd w ≠ .ok i) ∧ reservedWord 0x0000 ∧
  ∀ (s : State) (w : CmdWord) (rest : List CmdWord), reservedWord w → s.rst = false → s.phase = .idle → s.cmds = w :: rest →
    (s.grain = .command → step s = .next (answered { s with cmds := rest } .refused .err)) ∧
    exec .idle s = .next { s with cmds := rest, phase := .respond, cur := .refused }

/-- A step runs the instruction that is due: in `IDLE`, at the grain of commands, the command word on the port, which is
consumed; otherwise the sequencer step of the current phase. `rsp_valid` is lowered first (R65, R27; log 1,
log 14). -/
def Obligations.StepRunsFetchedInstruction : Prop :=
  (∀ (s : State) (w : CmdWord) (rest : List CmdWord) (i : Instr),
    s.rst = false → s.grain = .command → s.phase = .idle → s.cmds = w :: rest → decodeCmd w = .ok i →
    step s = exec i { s with cmds := rest, rspValid := false }) ∧
  (∀ (s : State) (i : Instr), s.rst = false → (s.grain = .phase ∨ s.phase ≠ .idle ∨ s.cmds = []) →
    decode (.phase (phaseCode s.phase)) = .ok i → step s = exec i { s with rspValid := false })

/-! ## Reset -/

/-- R240: hardware reset puts the block's elements at their reset values whatever the state, in the middle of a command
too; it emits no event, delivers no response, drops `CRIT` and releases the line, and only `CONSTRUCT` is accepted
after it. -/
def Obligations.HardwareResetAbandonsCommand : Prop :=
  ∀ s : State, s.rst = true → ∃ t, step s = .next t ∧
    t.bound = false ∧ t.pin = 0 ∧ t.lastMs = 0 ∧ t.lastOk = false ∧ (∀ k : Fin 5, t.frame[k] = 0) ∧ t.phase = .idle ∧
    t.crit = false ∧ t.mode = .unset ∧ lineOe t = false ∧ linePu t = false ∧ t.rspValid = false ∧ t.rst = false ∧
    t.trace = s.trace ∧ t.cmds = s.cmds ∧ t.cfg = s.cfg ∧
    exec .begin t = .next (answered t .refused .err) ∧ exec .read t = .next (answered t .refused .err) ∧
    exec .getspecs t = .next (answered t .refused .err) ∧
    ∀ p, exec (.construct p) t = .next (answered { t with pin := p, bound := true } .construct .ok)

/-- R241: after `CONSTRUCT p` from reset `BOUND` = 1, `PIN` = `p`, the response is `OK`, everything else is as after reset
(no I/O: `MODE` still `UNSET`, the clock not read), and `BEGIN`, `READ` and `GETSPECS` are accepted. With the reset
values the spec states (R35); the values of the elements R35 calls unspecified are the model's choice (log 6) and not
stated. -/
def Obligations.ResetAndConstructValues : Prop :=
  (State.reset.bound = false ∧ State.reset.pin = 0 ∧ State.reset.lastMs = 0 ∧ State.reset.lastOk = false ∧
    (∀ k : Fin 5, State.reset.frame[k] = 0) ∧ State.reset.phase = .idle ∧ State.reset.crit = false ∧
    State.reset.mode = .unset) ∧
  ∀ p, ∃ t, exec (.construct p) State.reset = .next t ∧
    t = answered { State.reset with bound := true, pin := p } .construct .ok ∧
    ∀ i : Instr, i = .begin ∨ i = .read ∨ i = .getspecs → ∃ u, exec i t = .next u ∧ u.rsp ≠ .err

/-! ## The four commands -/

/-- R111: `CONSTRUCT pin` binds the pin, once, and does no I/O; a second one is refused and keeps `PIN`. -/
def Obligations.ConstructBindsPinOnce : Prop :=
  ∀ (s : State) (p : BitVec 8), s.phase = .idle →
    exec (.construct p) s
      = .next (if s.bound then answered s .refused .err else answered { s with pin := p, bound := true } .construct .ok)

/-- R112: `BEGIN` makes the pin an input with pull-up, samples the clock and writes the seed, which the gate finds 2000 ms
old at the same clock value; unbound, it is refused. -/
def Obligations.BeginSeedsTimestamp : Prop :=
  (∀ s : State, s.phase = .idle → s.bound = true →
    exec .begin s = .next (answered
      { s with mode := .inputPullup, lastMs := nowOf s - 2000, time := s.nextTime, clock := s.clock.tail,
               clockDraws := s.clockDraws + (1 - s.clock.length),
               trace := s.trace ++ [.mode .inputPullup, .now (nowOf s)] } .begin .ok)) ∧
  (∀ s : State, s.phase = .idle → s.bound = false → exec .begin s = .next (answered s .refused .err)) ∧
  ∀ t : Word, elapsed t (t - 2000) = 2000 ∧ gate t (t - 2000) = .fresh

/-- The interval gate compares (`t` − `LAST_MS`) mod 2^32 with 2000, unsigned (R117), with both consequences of the
sentence of R117 that begins "Consequences", the spec's inference from R112 and R117: fresh after `BEGIN` while
fewer than 2^32 − 2000 ms have passed, and cached after a fresh `READ` exactly when `d` mod 2^32 < 2000. -/
def Obligations.GateIsModularElapsed : Prop :=
  (∀ t l : Word, (gate t l = .cached ↔ (t.toNat + 2 ^ 32 - l.toNat) % 2 ^ 32 < 2000) ∧ (gate t l = .fresh ∨ gate t l = .cached)) ∧
  (∀ b d : Nat, d < 2 ^ 32 - 2000 → gate (BitVec.ofNat 32 (b + d)) (BitVec.ofNat 32 b - 2000) = .fresh) ∧
  ∀ t0 d : Nat, gate (BitVec.ofNat 32 (t0 + d)) (BitVec.ofNat 32 t0) = .cached ↔ d % 2 ^ 32 < 2000

/-- R113: `READ` is refused unbound; otherwise one clock sample decides between the cached Reading and a fresh exchange,
whose result becomes `LAST_OK`; the response is the Reading of `LAST_OK` and `FRAME`. -/
def Obligations.ReadFollowsGate : Prop :=
  ∀ s : State, s.phase = .idle →
    (s.bound = false → exec .read s = .next (answered s .refused .err)) ∧
    (s.bound = true → (nowOf s - s.lastMs).toNat < 2000 →
      exec .read s = .next (answered (sampled s) .read (if s.lastOk then readingOf s.frame else noReading))) ∧
    (s.bound = true → ¬ (nowOf s - s.lastMs).toNat < 2000 →
      exec .read s = .next (answered
        { (xfer { sampled s with lastMs := nowOf s }).2 with lastOk := (xfer { sampled s with lastMs := nowOf s }).1 } .read
        (if (xfer { sampled s with lastMs := nowOf s }).1
          then readingOf (xfer { sampled s with lastMs := nowOf s }).2.frame else noReading)))

/-- R114: on the cached path no element of the block changes but the response, and the whole trace is one `Now` event. -/
def Obligations.ReadCachedTouchesNothing : Prop :=
  ∀ s : State, s.phase = .idle → s.bound = true → gate (nowOf s) s.lastMs = .cached →
    ∃ t, exec .read s = .next t ∧ t.trace = s.trace ++ [.now (nowOf s)] ∧
      t.rsp = (if s.lastOk then readingOf s.frame else noReading) ∧
      t = { s with rsp := t.rsp, rspValid := true, cur := .read, time := t.time, clock := t.clock,
                   clockDraws := t.clockDraws, trace := t.trace }

/-- Derived from R115 and R218, and from the spec's inferences in R251 and R252: the fresh path moves `LAST_MS` whatever
the outcome, closes the critical section, releases the line, answers with the Reading of the new frame or with no
values, and changes nothing else. -/
def Obligations.ReadFreshOutcome : Prop :=
  ∀ s : State, s.phase = .idle → s.bound = true → gate (nowOf s) s.lastMs = .fresh →
    ∃ t, exec .read s = .next t ∧
      t = { s with lastMs := nowOf s, lastOk := t.lastOk, frame := t.frame, dur := t.dur, cnt := t.cnt, idx := t.idx,
                   crit := false, mode := .inputPullup, drv := .low, rsp := t.rsp, rspValid := true, cur := .read,
                   time := s.nextTime, clock := t.clock, clockDraws := t.clockDraws, line := t.line,
                   lineDraws := t.lineDraws, trace := t.trace } ∧
      (t.lastOk = true → checksumOk t.frame = true ∧ t.rsp = readingOf t.frame) ∧
      (t.lastOk = false → t.rsp = noReading)

/-- The spec's inferences in R152 and R151, from R113 and R140 to R146: the events of a fresh `READ`: the clock, the seven
of `START`, `CritEnter`, between 1 and 82 × `MAXC` polls, `CritExit`, and nothing more. -/
def Obligations.ReadFreshTrace : Prop :=
  ∀ s t : State, s.phase = .idle → s.bound = true → gate (nowOf s) s.lastMs = .fresh → exec .read s = .next t →
    ∃ vs : List Level, 1 ≤ vs.length ∧ vs.length ≤ 82 * s.cfg.maxc ∧ (¬ ackPasses s → vs.length ≤ 2 * s.cfg.maxc) ∧
      (ackPasses s → 82 ≤ vs.length) ∧
      t.trace = s.trace ++ [.now (nowOf s)] ++ startEvents s.cfg ++ [.critEnter] ++ vs.map Event.read ++ [.critExit]

/-- R212: a `TIMEOUT` on the LOW or on the HIGH pulse of the acknowledgment fails the `READ`: no values, `FRAME` zero,
`DUR` not written, the section closed before the return. -/
def Obligations.HandshakeTimeoutFailsRead : Prop :=
  ∀ s : State, s.phase = .idle → s.bound = true → gate (nowOf s) s.lastMs = .fresh →
    ((∀ k < s.cfg.maxc, upcoming s k = .low) →
      exec .read s = .next (answered
        { consumed { sampled s with trace := (sampled s).trace ++ startEvents s.cfg ++ [.critEnter] } s.cfg.maxc
            (List.replicate s.cfg.maxc .low) with
          cnt := BitVec.ofNat 32 s.cfg.maxc, lastMs := nowOf s, lastOk := false, frame := Vector.replicate 5 0,
          crit := false, mode := .inputPullup, drv := .low,
          trace := s.trace ++ [.now (nowOf s)] ++ startEvents s.cfg ++ [.critEnter] ++
            List.replicate s.cfg.maxc (.read .low) ++ [.critExit] } .read noReading)) ∧
    (∀ n < s.cfg.maxc, (∀ k < n, upcoming s k = .low) → upcoming s n = .high →
      (∀ k < s.cfg.maxc, upcoming s (n + 1 + k) = .high) →
      exec .read s = .next (answered
        { consumed (sampled s) (n + 1 + s.cfg.maxc) [] with
          cnt := BitVec.ofNat 32 s.cfg.maxc, lastMs := nowOf s, lastOk := false, frame := Vector.replicate 5 0,
          crit := false, mode := .inputPullup, drv := .low,
          trace := s.trace ++ [.now (nowOf s)] ++ startEvents s.cfg ++ [.critEnter] ++
            List.replicate n (.read .low) ++ List.replicate (s.cfg.maxc + 1) (.read .high) ++ [.critExit] } .read noReading))

/-- Derived from R213: one missing pulse among the 80 durations fails the `READ` and discards all forty bits. -/
def Obligations.BitTimeoutFailsRead : Prop :=
  ∀ s : State, s.phase = .idle → s.bound = true → gate (nowOf s) s.lastMs = .fresh → ackPasses s →
    ∃ t, exec .read s = .next t ∧
      (hasTimeout t.dur → t.lastMs = nowOf s ∧ t.lastOk = false ∧ (∀ k : Fin 5, t.frame[k] = 0) ∧ t.crit = false ∧
        t.mode = .inputPullup ∧ t.rsp = noReading)

/-- R214: with all forty bits captured and a wrong checksum byte the `READ` fails: `FRAME` keeps the decoded bits, which
are never surfaced. -/
def Obligations.ChecksumMismatchFailsRead : Prop :=
  ∀ s : State, s.phase = .idle → s.bound = true → gate (nowOf s) s.lastMs = .fresh → ackPasses s →
    ∃ t, exec .read s = .next t ∧
      (¬ hasTimeout t.dur →
        (∀ i : Fin 40, wireBit t.frame i = decide ((durLow t.dur i).toNat < (durHigh t.dur i).toNat)) ∧
        (t.frame[4].toNat ≠ (t.frame[0].toNat + t.frame[1].toNat + t.frame[2].toNat + t.frame[3].toNat) % 256 →
          t.lastMs = nowOf s ∧ t.lastOk = false ∧ t.crit = false ∧ t.mode = .inputPullup ∧ t.rsp = noReading) ∧
        (t.frame[4].toNat = (t.frame[0].toNat + t.frame[1].toNat + t.frame[2].toNat + t.frame[3].toNat) % 256 →
          t.lastOk = true ∧ t.rsp = readingOf t.frame))

/-- The sentence of R118 that begins "Precisely", the spec's inference from R113, R114 and R192: a `READ` that takes the
cached path right after a `READ` responds with the same Reading, bit for bit, and its trace is one `Now` event. -/
def Obligations.RepeatedReadIsIdempotent : Prop :=
  ∀ s t : State, s.phase = .idle → s.bound = true → exec .read s = .next t → gate (nowOf t) t.lastMs = .cached →
    ∃ u, exec .read t = .next u ∧ u.rsp = t.rsp ∧ u.trace = t.trace ++ [.now (nowOf t)]

/-- Derived from R112 and R117, the spec's inference in R242 and R245: after `BEGIN` the next `READ` takes the fresh path,
however recently the last exchange ran, unless 2^32 − 2000 ms or more pass first. -/
def Obligations.BeginPermitsImmediateRead : Prop :=
  ∀ s t : State, s.phase = .idle → s.bound = true → exec .begin s = .next t → t.nextTime < t.time + (2 ^ 32 - 2000) →
    gate (nowOf t) t.lastMs = .fresh ∧ ∃ u, exec .read t = .next u ∧ u.lastMs = nowOf t ∧ .critEnter ∈ u.trace.drop t.trace.length

/-- R243, which rests on the spec's decision D19 and on the reset values it decided (log 19): a `READ` in the state
`CONSTRUCT` leaves, without `BEGIN`, follows the gate on `LAST_MS` = 0: before 2000 ms the invalid Reading without
I/O, from 2000 ms on a fresh exchange. -/
def Obligations.ReadBeforeBegin : Prop :=
  ∀ s : State, s.phase = .idle → s.bound = true → s.lastMs = 0 → s.lastOk = false →
    ((nowOf s).toNat < 2000 → exec .read s = .next (answered (sampled s) .read noReading)) ∧
    (2000 ≤ (nowOf s).toNat → ∃ t, exec .read s = .next t ∧ t.lastMs = nowOf s ∧ t.mode = .inputPullup)

/-- R116: `GETSPECS` returns the static record, with `min_delay_ms` = 2000, and changes nothing; unbound, it is
refused. -/
def Obligations.GetSpecsReturnsRecord : Prop :=
  ∀ s : State, s.phase = .idle →
    exec .getspecs s = .next (if s.bound then
        answered s .getspecs (.specs ⟨s.cfg.specs.name, s.cfg.specs.tMin, s.cfg.specs.tMax, s.cfg.specs.tRes,
          s.cfg.specs.hMin, s.cfg.specs.hMax, s.cfg.specs.hRes, 2000⟩)
      else answered s .refused .err)

/-- Derived from R110 and R247: a command is accepted only in `IDLE`: before that it is not performed, which is the
model's reading (log 18), and the word on the port is not consumed. -/
def Obligations.CommandWaitsForIdle : Prop :=
  (∀ (s : State) (i : Instr), s.phase ≠ .idle → (i = .begin ∨ i = .read ∨ i = .getspecs ∨ ∃ p, i = .construct p) →
    exec i s = .next s) ∧
  ∀ s t : State, s.rst = false → s.phase ≠ .idle → step s = .next t → t.cmds = s.cmds

/-! ## The phases -/

/-- Derived from R110 and the rows `IDLE` of R153: acceptance in `IDLE`, one row of the transition table for each command
word; with no word the block waits. -/
def Obligations.IdleAcceptsCommand : Prop :=
  (∀ s : State, s.phase = .idle → s.cmds = [] → exec .idle s = .next s) ∧
  ∀ (s : State) (w : CmdWord) (rest : List CmdWord) (i : Instr), s.cmds = w :: rest → decodeCmd w = .ok i →
    (∀ p, i = .construct p → s.bound = false →
      exec .idle s = .next { s with cmds := rest, pin := p, bound := true, phase := .respond, cur := .construct }) ∧
    (i = .begin → s.bound = true →
      exec .idle s = .next
        { s with cmds := rest, mode := .inputPullup, lastMs := nowOf s - 2000, time := s.nextTime, clock := s.clock.tail,
                 clockDraws := s.clockDraws + (1 - s.clock.length),
                 trace := s.trace ++ [.mode .inputPullup, .now (nowOf s)], phase := .respond, cur := .begin }) ∧
    (i = .read → s.bound = true → exec .idle s = .next { s with cmds := rest, phase := .gate, cur := .read }) ∧
    (i = .getspecs → s.bound = true → exec .idle s = .next { s with cmds := rest, phase := .respond, cur := .getspecs }) ∧
    ((∃ p, i = .construct p ∧ s.bound = true) ∨ ((i = .begin ∨ i = .read ∨ i = .getspecs) ∧ s.bound = false) →
      exec .idle s = .next { s with cmds := rest, phase := .respond, cur := .refused })

/-- Derived from R117 and the rows `GATE` of R153: phase `GATE` samples the clock once; cached goes to `RESPOND`, fresh
records the sample and goes to `CLEAR`. -/
def Obligations.GatePhaseTransition : Prop :=
  ∀ s : State, exec .gate s = .next
    (if (nowOf s - s.lastMs).toNat < 2000 then { sampled s with phase := .respond }
     else { sampled s with lastMs := nowOf s, phase := .clear })

/-- R141: `CLEAR` writes 0x00 to the five bytes of `FRAME` and nothing else. -/
def Obligations.ClearZeroesFrame : Prop :=
  ∀ s : State, ∃ t, exec .clear s = .next t ∧ (∀ k : Fin 5, t.frame[k] = 0x00) ∧
    t = { s with frame := t.frame, phase := .startPre }

/-- R142: the three parts of `START`, each with its events in order; the start signal is issued outside the critical
section, which `CritEnter` opens after the settle delay. -/
def Obligations.StartPhasesEmitSignal : Prop :=
  ∀ s : State,
    exec .startPre s = .next { s with mode := .inputPullup, phase := .startLow,
                                      trace := s.trace ++ [.mode .inputPullup, .delayMs s.cfg.prePullupMs] } ∧
    exec .startLow s = .next { s with mode := .output, drv := .low, phase := .startRel,
                                      trace := s.trace ++ [.mode .output, .write .low, .delayMs 20] } ∧
    exec .startRel s = .next { s with mode := .inputPullup, crit := true, phase := .ackLow,
                                      trace := s.trace ++ [.mode .inputPullup, .delayUs 55, .critEnter] }

/-- Derived from R144, R146 and the rows of R153: each acknowledgment phase makes one `EXPECT`; a `TIMEOUT` closes the
section and fails the exchange, anything else goes on. -/
def Obligations.AckPhaseTransitions : Prop :=
  ∀ s : State,
    exec .ackLow s = .next
      (if (expect .low s).1 = 0xFFFFFFFF then
        { polled s .low with trace := (polled s .low).trace ++ [.critExit], crit := false, lastOk := false, phase := .respond }
       else { polled s .low with phase := .ackHigh }) ∧
    exec .ackHigh s = .next
      (if (expect .high s).1 = 0xFFFFFFFF then
        { polled s .high with trace := (polled s .high).trace ++ [.critExit], crit := false, lastOk := false, phase := .respond }
       else { polled s .high with idx := 0, phase := .capLow })

/-- Derived from R145, R146 and the rows of R153: the capture phases store the two durations of bit `IDX`, a `TIMEOUT`
like any other value, and after bit 39 close the critical section. -/
def Obligations.CapturePhaseTransitions : Prop :=
  ∀ s : State,
    exec .capLow s = .next { polled s .low with dur := s.dur.set (2 * s.idx.val) (expect .low s).1, phase := .capHigh } ∧
    (∀ j : Fin 40, j.val = s.idx.val + 1 →
      exec .capHigh s = .next { polled s .high with dur := s.dur.set (2 * s.idx.val + 1) (expect .high s).1, idx := j,
                                                    phase := .capLow }) ∧
    (s.idx.val = 39 →
      exec .capHigh s = .next { polled s .high with dur := s.dur.set 79 (expect .high s).1, idx := 0, crit := false,
                                                    trace := (polled s .high).trace ++ [.critExit], phase := .decode })

/-- Derived from R147, R148 and the rows of R153: phase `DECODE` fails on any sentinel in `DUR`, else packs bit `IDX` into
its place, all other bits of the frame unchanged, and goes on to the next bit or to `CSUM`. -/
def Obligations.DecodePhaseTransitions : Prop :=
  ∀ s : State,
    (hasTimeout s.dur → exec .decode s = .next { s with lastOk := false, phase := .respond }) ∧
    (¬ hasTimeout s.dur → ∃ t, exec .decode s = .next t ∧
      t = { s with frame := t.frame, idx := t.idx, phase := t.phase } ∧
      (∀ i : Fin 40, wireBit t.frame i =
        if i = s.idx then decide ((durLow s.dur i).toNat < (durHigh s.dur i).toNat) else wireBit s.frame i) ∧
      (s.idx.val < 39 → t.idx.val = s.idx.val + 1 ∧ t.phase = .decode) ∧
      (s.idx.val = 39 → t.idx = s.idx ∧ t.phase = .csum))

/-- R149: the checksum test: `FRAME[4]` against the sum of the other four bytes mod 256. -/
def Obligations.ChecksumPhaseTest : Prop :=
  ∀ s : State, ∃ t, exec .csum s = .next t ∧ t = { s with lastOk := t.lastOk, phase := .respond } ∧
    (t.lastOk = true ↔
      s.frame[4].toNat = (s.frame[0].toNat + s.frame[1].toNat + s.frame[2].toNat + s.frame[3].toNat) % 256)

/-- Derived from R92, R191 and the row `RESPOND` of R153: phase `RESPOND` delivers the one response of the command in
progress and returns to `IDLE`. -/
def Obligations.RespondPhaseDelivers : Prop :=
  ∀ s : State, exec .respond s = .next { s with
    rspValid := true, phase := .idle,
    rsp := match s.cur with
      | .refused => .err
      | .construct => .ok
      | .begin => .ok
      | .read => if s.lastOk then readingOf s.frame else noReading
      | .getspecs => .specs (specsRecord s.cfg) }

/-! ## The functions -/

/-- The spec's inference R171, from R170 and R172: `EXPECT` on any line. With `n` < `MAXC` answers at `level` before
another level the result is `n` after `n` + 1 reads; with `MAXC` or more it is `TIMEOUT` after exactly `MAXC`. The
two results are disjoint. -/
def Obligations.ExpectMeasuresRun : Prop :=
  (∀ (s : State) (level : Level) (n : Nat), n < s.cfg.maxc → (∀ k < n, upcoming s k = level) → upcoming s n ≠ level →
    exec (.expect level) s = .next
      { consumed s (n + 1) (List.replicate n level ++ [upcoming s n]) with
        cnt := BitVec.ofNat 32 n, ret := .duration (BitVec.ofNat 32 n) }) ∧
  (∀ (s : State) (level : Level), (∀ k < s.cfg.maxc, upcoming s k = level) →
    exec (.expect level) s = .next
      { consumed s s.cfg.maxc (List.replicate s.cfg.maxc level) with
        cnt := BitVec.ofNat 32 s.cfg.maxc, ret := .duration 0xFFFFFFFF }) ∧
  ∀ (c : Config) (n : Nat), n < c.maxc → BitVec.ofNat 32 n ≠ 0xFFFFFFFF ∧ (BitVec.ofNat 32 n).toNat = n

/-- Derived from R170, R172 and R174: whatever the line does, `EXPECT` returns within `MAXC` reads and touches only `CNT`,
the line's answers and the trace (and `ret`, the model's own). -/
def Obligations.ExpectIsBoundedLeaf : Prop :=
  ∀ (s : State) (level : Level), ∃ (t : State) (d : Word) (vs : List Level), exec (.expect level) s = .next t ∧
    t = { s with cnt := t.cnt, line := t.line, lineDraws := t.lineDraws, trace := t.trace, ret := .duration d } ∧
    t.trace = s.trace ++ vs.map Event.read ∧ 1 ≤ vs.length ∧ vs.length ≤ s.cfg.maxc ∧
    ((d = 0xFFFFFFFF ∧ vs = List.replicate s.cfg.maxc level) ∨
     (d.toNat < s.cfg.maxc ∧ vs.length = d.toNat + 1 ∧ d = t.cnt))

/-- The spec's inference R173, from R170: the sample that ends a pulse is consumed: a run of `a` LOWs, then `b` ≥ 1 HIGHs,
then a LOW measures as `a` and `b` − 1. -/
def Obligations.EndingSampleIsConsumed : Prop :=
  ∀ (s : State) (a b : Nat) (rest : List Level), a < s.cfg.maxc → b < s.cfg.maxc → 1 ≤ b →
    s.line = List.replicate a .low ++ List.replicate b .high ++ .low :: rest →
    ∃ t u, exec (.expect .low) s = .next t ∧ t.ret = .duration (BitVec.ofNat 32 a) ∧
      exec (.expect .high) t = .next u ∧ u.ret = .duration (BitVec.ofNat 32 (b - 1)) ∧ u.line = rest

/-- Derived from R140, the spec's inference R150: `XFER` case by case: handshake timeout, bit timeout, decoded bits with
the checksum deciding; in every case the critical section is closed, the line released, and no driver register but
`FRAME` written. -/
def Obligations.XferOutcomes : Prop :=
  ∀ s : State, ∃ (t : State) (b : Bool), exec .xfer s = .next t ∧
    t = { s with frame := t.frame, dur := t.dur, cnt := t.cnt, idx := t.idx, crit := false, mode := .inputPullup,
                 drv := .low, ret := .ok b, line := t.line, lineDraws := t.lineDraws, trace := t.trace } ∧
    (¬ ackPasses s → b = false ∧ (∀ k : Fin 5, t.frame[k] = 0) ∧ t.dur = s.dur) ∧
    (ackPasses s → hasTimeout t.dur → b = false ∧ ∀ k : Fin 5, t.frame[k] = 0) ∧
    (ackPasses s → ¬ hasTimeout t.dur →
      (∀ i : Fin 40, wireBit t.frame i = decide ((durLow t.dur i).toNat < (durHigh t.dur i).toNat)) ∧
      (b = true ↔ t.frame[4].toNat = (t.frame[0].toNat + t.frame[1].toNat + t.frame[2].toNat + t.frame[3].toNat) % 256))

/-- R189: `CTEMP`: the integer part is `FRAME[2]`, or −1 − `FRAME[2]` when bit 7 of `FRAME[3]` is set; the nibble times
`TENTH` is added; bits 6:4 are ignored. With the document's two examples. -/
def Obligations.CtempFormula : Prop :=
  (∀ (s : State) (t f : F32), t = (if s.frame[3].getLsbD 7 then fsub 0xBF800000 (i2f s.frame[2]) else i2f s.frame[2]) →
    f = fmul (i2f (s.frame[3] &&& 0x0F)) 0x3DCCCCCD → exec .ctemp s = .next { s with ret := .float (fadd t f) }) ∧
  (∀ f : Vector Byte 5, f[2] = 25 → f[3] = 0x80 → ctemp f = 0xC1D00000) ∧
  (∀ f : Vector Byte 5, f[2] = 25 → f[3] = 0x00 → ctemp f = 0x41C80000) ∧
  (∀ f : Vector Byte 5, f[2] = 0 → f[3] = 0x8A → ctemp f = 0x00000000)

/-- R190: `CHUM`: `FRAME[0]` plus the whole of `FRAME[1]` times `TENTH`, with the property and the corner cases the rule
states. -/
def Obligations.ChumFormula : Prop :=
  (∀ s : State, exec .chum s = .next { s with ret := .float (fadd (i2f s.frame[0]) (fmul (i2f s.frame[1]) 0x3DCCCCCD)) }) ∧
  (∀ f : Vector Byte 5, f[1] = 0 → chum f = i2f f[0]) ∧
  (∀ f : Vector Byte 5, f[1] = 5 → f32Val (chum f) = f32Val (i2f f[0]) + 2 ^ 148) ∧
  (∀ f : Vector Byte 5, f[1] = 10 → f32Val (chum f) = f32Val (i2f f[0]) + 2 ^ 149) ∧
  (∀ f : Vector Byte 5, f[0] = 255 → f[1] = 255 → chum f = 0x438C4000) ∧
  ∀ f : Vector Byte 5, f[0] = 45 → f[1] = 5 → chum f = 0x42360000

/-- R191: `MKREADING`: both values and validity when `ok` = 1; otherwise no values, and the frame is not read. -/
def Obligations.MkReadingFormula : Prop :=
  (∀ s : State, exec .mkreading s = .next { s with ret := .reading (mkReading s.lastOk s.frame) }) ∧
  (∀ f : Vector Byte 5, mkReading true f = ⟨some (ctemp f), some (chum f), true⟩) ∧
  ∀ f : Vector Byte 5, mkReading false f = ⟨none, none, false⟩

/-- The table of R193, the spec's inference from R186 and R187: the products `FMUL(I2F(n), TENTH)` for `n` in 0..15. -/
def Obligations.TenthProducts : Prop :=
  (List.range 16).map (fun n => fmul (i2f (BitVec.ofNat 8 n)) tenth) =
    [0x00000000, 0x3DCCCCCD, 0x3E4CCCCD, 0x3E99999A, 0x3ECCCCCD, 0x3F000000, 0x3F19999A, 0x3F333333,
     0x3F4CCCCD, 0x3F666667, 0x3F800000, 0x3F8CCCCD, 0x3F99999A, 0x3FA66667, 0x3FB33333, 0x3FC00000]

/-- Derived from R185 and R187: `I2F` is exact; `FMUL` and `FADD` of finite numbers with a finite result are the
binary32 numbers nearest to the exact result, ties going to the even pattern; a sum of finite numbers that is
exactly zero is +0; `FSUB(a, b)` is `FADD(a, −b)`. Values are counted in units of 2^−149. (A pattern with exponent
255 has no value in the spec, log 12: every clause about values assumes finite operands.) -/
def Obligations.ArithmeticIsCorrectlyRounded : Prop :=
  (∀ n : Byte, f32Val (i2f n) = (n.toNat : Int) * 2 ^ 149) ∧
  (∀ a b y : F32, f32Exp a ≠ 255 → f32Exp b ≠ 255 → f32Exp y ≠ 255 → f32Exp (fmul a b) ≠ 255 →
    |f32Val a * f32Val b - f32Val (fmul a b) * 2 ^ 149| ≤ |f32Val a * f32Val b - f32Val y * 2 ^ 149| ∧
    (|f32Val a * f32Val b - f32Val (fmul a b) * 2 ^ 149| = |f32Val a * f32Val b - f32Val y * 2 ^ 149| →
      f32Val y ≠ f32Val (fmul a b) → (fmul a b).getLsbD 0 = false)) ∧
  (∀ a b y : F32, f32Exp a ≠ 255 → f32Exp b ≠ 255 → f32Exp y ≠ 255 → f32Exp (fadd a b) ≠ 255 →
    |f32Val a + f32Val b - f32Val (fadd a b)| ≤ |f32Val a + f32Val b - f32Val y| ∧
    (|f32Val a + f32Val b - f32Val (fadd a b)| = |f32Val a + f32Val b - f32Val y| →
      f32Val y ≠ f32Val (fadd a b) → (fadd a b).getLsbD 0 = false)) ∧
  (∀ a b : F32, f32Exp a ≠ 255 → f32Exp b ≠ 255 → f32Val a + f32Val b = 0 → fadd a b = 0x00000000) ∧
  ∀ a b : F32, fsub a b = fadd a (b ^^^ 0x80000000)

/-- The spec's inference R194, from R189 and R190: every result of the converter is a normal number or +0; `CHUM` lies in
0 to 280.5 and `CTEMP` in −256 to 256.5. -/
def Obligations.ConverterRange : Prop :=
  ∀ f : Vector Byte 5,
    (chum f = 0 ∨ (1 ≤ f32Exp (chum f) ∧ f32Exp (chum f) ≤ 254)) ∧
    (ctemp f = 0 ∨ (1 ≤ f32Exp (ctemp f) ∧ f32Exp (ctemp f) ≤ 254)) ∧
    0 ≤ f32Val (chum f) ∧ 2 * f32Val (chum f) ≤ 561 * 2 ^ 149 ∧
    -(256 * 2 ^ 149) ≤ f32Val (ctemp f) ∧ 2 * f32Val (ctemp f) ≤ 513 * 2 ^ 149

/-- Derived from R192: `CTEMP` depends on `FRAME[2]` and bits 7 and 3:0 of `FRAME[3]` only, `CHUM` on `FRAME[0]` and
`FRAME[1]` only. -/
def Obligations.ConverterReadsOnlyItsBytes : Prop :=
  (∀ f g : Vector Byte 5, f[2] = g[2] → f[3] &&& 0x8F = g[3] &&& 0x8F → ctemp f = ctemp g) ∧
  (∀ f g : Vector Byte 5, f[0] = g[0] → f[1] = g[1] → chum f = chum g)

/-- R148, R85: after `DECODE` bit `i` stands at `FRAME[i div 8][7 − (i mod 8)]` and nowhere else: every bit of every byte
is written exactly once, and `w_i` = `F[39 − i]`. -/
def Obligations.DecodePacksHighBitFirst : Prop :=
  (∀ (d : Vector Word 80) (f : Vector Byte 5) (i : Fin 40),
    (decodeFrame d f)[i.val / 8].getLsbD (7 - i.val % 8) = decide ((durLow d i).toNat < (durHigh d i).toNat)) ∧
  ∀ (f : Vector Byte 5) (i : Fin 40), (frameNumber f).getLsbD (39 - i.val) = f[i.val / 8].getLsbD (7 - i.val % 8)

/-- Derived from R147: multiplying every duration by the same factor changes no bit of the decoded frame. -/
def Obligations.DecodeIsScaleInvariant : Prop :=
  ∀ (d e : Vector Word 80) (k : Nat), 0 < k →
    (∀ j : Fin 80, e[j].toNat = k * d[j].toNat) → ∀ f : Vector Byte 5, decodeFrame e f = decodeFrame d f

/-! ## The whole machine -/

/-- Derived from R110, R218 and R219: nothing stops the block: every step answers a next state. -/
def Obligations.StepAlwaysAnswers : Prop :=
  ∀ s : State, ∃ t, step s = .next t

/-- The spec's inference R252, from R140 and R146: `CRIT` is 1 exactly in the phases of the acknowledgment and the
capture: every step keeps this, so `CRIT` = 0 whenever `PHASE` = `IDLE` and whenever a command has responded. -/
def Obligations.StepKeepsCritMatched : Prop :=
  ∀ s t : State, CritMatches s → step s = .next t → CritMatches t ∧ (t.rspValid = true → t.crit = false)

/-- The spec's inference in R33 (c), from R149 and R113: every step keeps: `LAST_OK` = 1 implies that the checksum of
`FRAME` holds, outside `DECODE` and `CSUM`. -/
def Obligations.StepKeepsFrameChecked : Prop :=
  ∀ s t : State, FrameChecked s → step s = .next t → FrameChecked t

/-- Derived from R142, R54 and R26, with the spec's inference R251: every step keeps: the pin is an output only between
`START_LOW` and `START_REL`, it is an input with pull-up wherever the line is polled, and an exchange runs only in a
bound block. -/
def Obligations.StepKeepsLineReleased : Prop :=
  ∀ s t : State, LineReleased s ∧ PollsAsInput s ∧ ExchangeBound s → step s = .next t →
    LineReleased t ∧ PollsAsInput t ∧ ExchangeBound t

/-- The four invariants hold in the reset state, whatever its configuration. -/
def Obligations.InvariantsHoldAtReset : Prop :=
  CritMatches State.reset ∧ FrameChecked State.reset ∧ LineReleased State.reset ∧ PollsAsInput State.reset ∧
    ExchangeBound State.reset

/-- Derived from R21 and R26: once the block is bound, no step but a hardware reset changes `PIN` or clears `BOUND`.
-/
def Obligations.StepKeepsBoundPin : Prop :=
  ∀ s t : State, s.rst = false → s.bound = true → step s = .next t → t.bound = true ∧ t.pin = s.pin

/-- Derived from R21: the block computes nothing from the value of `PIN`: two runs that differ in it alone go on differing
in it alone. -/
def Obligations.PinValueIsIrrelevant : Prop :=
  ∀ (s t : State) (p : BitVec 8), step s = .next t →
    ∃ u, step { s with pin := p } = .next u ∧ { u with pin := t.pin } = t

/-- Derived from R55, R33 (b), R22, R112 and R113: the true time never goes back; `LAST_MS` changes only to the time
sampled in the step, in `GATE` or in a `READ` performed whole, or to that time less 2000, the seed, in an `IDLE`
step that accepts `BEGIN`. -/
def Obligations.StepTimestampsAreMonotone : Prop :=
  ∀ s t : State, s.rst = false → step s = .next t →
    s.time ≤ t.time ∧
    (t.lastMs = s.lastMs ∨
     (t.lastMs = BitVec.ofNat 32 t.time ∧ (s.phase = .gate ∨
       (s.phase = .idle ∧ s.grain = .command ∧ ∃ w rest, s.cmds = w :: rest ∧ decodeCmd w = .ok .read))) ∨
     (t.lastMs = BitVec.ofNat 32 t.time - 2000 ∧ s.phase = .idle ∧
       ∃ w rest, s.cmds = w :: rest ∧ decodeCmd w = .ok .begin))

/-- Derived from R58, R59, R60, R143 and R146: a step only appends events; every `Read` lies between `CritEnter` and
`CritExit`, which come in pairs and never nest; and the scan ends with `CRIT` as it stands. -/
def Obligations.StepEventsFollowCriticalSection : Prop :=
  ∀ s t : State, s.rst = false → CritMatches s → step s = .next t →
    ∃ es, t.trace = s.trace ++ es ∧ critScan s.crit es = some t.crit

/-- Derived from R53 and R142: the block only ever writes LOW, and only with the pin an output. -/
def Obligations.StepWritesOnlyLow : Prop :=
  ∀ s t : State, step s = .next t → ∃ es, t.trace = s.trace ++ es ∧ .write .high ∉ es ∧
    ∀ pre post, es = pre ++ .write .low :: post → pre.getLast? = some (.mode .output)

/-- Derived from R92 and R110: a response is delivered exactly by the step that performs a command whole, refuses a word,
or runs `RESPOND`; after it the block is in `IDLE`. -/
def Obligations.OneResponsePerCommand : Prop :=
  ∀ s t : State, s.rst = false → step s = .next t →
    (t.rspValid = true ↔ s.phase = .respond ∨ (s.phase = .idle ∧ s.grain = .command ∧ s.cmds ≠ [])) ∧
    (t.rspValid = true → t.phase = .idle)

/-- Derived from R27 and R153: the phase machine refines the command rules: from acceptance in `IDLE` it returns to `IDLE`
within 130 steps, in the state, with the response and with the trace that performing the command whole gives. -/
def Obligations.PhaseRunRefinesCommand : Prop :=
  ∀ (s : State) (w : CmdWord) (rest : List CmdWord), s.rst = false → s.phase = .idle → s.grain = .phase → s.cmds = w :: rest →
    ∃ (n : Nat) (t : State), n ≤ 130 ∧ Host.Core.run core n s = .next t ∧ t.phase = .idle ∧ t.rspValid = true ∧
      step { s with grain := .command } = .next { t with grain := .command }

/-- Derived from R113, R145, R147, R148, R149 and the spec's inference R173: end to end. When the line answers with the
pulses of a frame `f` (each bit's HIGH count above its LOW count exactly where the bit is 1, all counts below `MAXC`),
a fresh `READ` consumes exactly those answers, stores `f`, and responds with the Reading of `f` if its checksum holds
and with no values if it does not. -/
def Obligations.ScriptedExchangeReadsFrame : Prop :=
  ∀ (s : State) (a0 a1 : Nat) (lo hi : Fin 40 → Nat) (rest : List Level) (f : Vector Byte 5),
    s.phase = .idle → s.bound = true → gate (nowOf s) s.lastMs = .fresh →
    a0 < s.cfg.maxc → a1 < s.cfg.maxc → (∀ i, lo i < s.cfg.maxc) → (∀ i, hi i < s.cfg.maxc) →
    s.line = frameScript a0 a1 lo hi ++ rest → (∀ i, wireBit f i = decide (lo i < hi i)) →
    ∃ t, exec .read s = .next t ∧ t.line = rest ∧ t.lastMs = nowOf s ∧ t.frame = f ∧ t.lastOk = checksumOk f ∧
      t.rsp = (if checksumOk f then readingOf f else noReading) ∧
      ∀ i, durLow t.dur i = BitVec.ofNat 32 (lo i) ∧ durHigh t.dur i = BitVec.ofNat 32 (hi i)

/-! ## Ports -/

/-- R90: the marker 0x7FC0_0000 stands in both value fields of `rsp_reading` exactly when `isValid` = 0; a valid Reading
carries it in neither field. -/
def Obligations.MarkerExactlyWhenInvalid : Prop :=
  ∀ (ok : Bool) (f : Vector Byte 5),
    ((readingWord (mkReading ok f)).extractLsb' 32 32 = 0x7FC00000 ↔ ok = false) ∧
    ((readingWord (mkReading ok f)).extractLsb' 0 32 = 0x7FC00000 ↔ ok = false) ∧
    (readingWord (mkReading ok f)).getLsbD 64 = ok

/-- R91: the layout of `rsp_specs`, bit by bit; `min_delay_ms` = 2000. -/
def Obligations.SpecsWordLayout : Prop :=
  ∀ s : State, (rspSpecs s).extractLsb' 224 64 = s.cfg.specs.name ∧ (rspSpecs s).extractLsb' 192 32 = s.cfg.specs.tMin ∧
    (rspSpecs s).extractLsb' 160 32 = s.cfg.specs.tMax ∧ (rspSpecs s).extractLsb' 128 32 = s.cfg.specs.tRes ∧
    (rspSpecs s).extractLsb' 96 32 = s.cfg.specs.hMin ∧ (rspSpecs s).extractLsb' 64 32 = s.cfg.specs.hMax ∧
    (rspSpecs s).extractLsb' 32 32 = s.cfg.specs.hRes ∧ (rspSpecs s).extractLsb' 0 32 = 2000
end

