-- ==== Sys2Proof/Laws/State.lean ====
section
/-! SUPPORT. The small lemmas of the state's updates: one per field per update, each true by rfl. -/

namespace Sys2Proof.Machine

@[simp] theorem State.emit_bound (s : State) (e : Event) : (s.emit e).bound = s.bound := rfl
@[simp] theorem State.emit_pin (s : State) (e : Event) : (s.emit e).pin = s.pin := rfl
@[simp] theorem State.emit_lastMs (s : State) (e : Event) : (s.emit e).lastMs = s.lastMs := rfl
@[simp] theorem State.emit_lastOk (s : State) (e : Event) : (s.emit e).lastOk = s.lastOk := rfl
@[simp] theorem State.emit_frame (s : State) (e : Event) : (s.emit e).frame = s.frame := rfl
@[simp] theorem State.emit_dur (s : State) (e : Event) : (s.emit e).dur = s.dur := rfl
@[simp] theorem State.emit_cnt (s : State) (e : Event) : (s.emit e).cnt = s.cnt := rfl
@[simp] theorem State.emit_phase (s : State) (e : Event) : (s.emit e).phase = s.phase := rfl
@[simp] theorem State.emit_idx (s : State) (e : Event) : (s.emit e).idx = s.idx := rfl
@[simp] theorem State.emit_crit (s : State) (e : Event) : (s.emit e).crit = s.crit := rfl
@[simp] theorem State.emit_mode (s : State) (e : Event) : (s.emit e).mode = s.mode := rfl
@[simp] theorem State.emit_drv (s : State) (e : Event) : (s.emit e).drv = s.drv := rfl
@[simp] theorem State.emit_rsp (s : State) (e : Event) : (s.emit e).rsp = s.rsp := rfl
@[simp] theorem State.emit_rspValid (s : State) (e : Event) : (s.emit e).rspValid = s.rspValid := rfl
@[simp] theorem State.emit_cur (s : State) (e : Event) : (s.emit e).cur = s.cur := rfl
@[simp] theorem State.emit_ret (s : State) (e : Event) : (s.emit e).ret = s.ret := rfl
@[simp] theorem State.emit_grain (s : State) (e : Event) : (s.emit e).grain = s.grain := rfl
@[simp] theorem State.emit_cfg (s : State) (e : Event) : (s.emit e).cfg = s.cfg := rfl
@[simp] theorem State.emit_rst (s : State) (e : Event) : (s.emit e).rst = s.rst := rfl
@[simp] theorem State.emit_cmds (s : State) (e : Event) : (s.emit e).cmds = s.cmds := rfl
@[simp] theorem State.emit_line (s : State) (e : Event) : (s.emit e).line = s.line := rfl
@[simp] theorem State.emit_lineDraws (s : State) (e : Event) : (s.emit e).lineDraws = s.lineDraws := rfl
@[simp] theorem State.emit_time (s : State) (e : Event) : (s.emit e).time = s.time := rfl
@[simp] theorem State.emit_clock (s : State) (e : Event) : (s.emit e).clock = s.clock := rfl
@[simp] theorem State.emit_clockDraws (s : State) (e : Event) : (s.emit e).clockDraws = s.clockDraws := rfl
@[simp] theorem State.emit_trace (s : State) (e : Event) : (s.emit e).trace = s.trace ++ [e] := rfl

@[simp] theorem State.pinMode_bound (s : State) (m : PinMode) : (s.pinMode m).bound = s.bound := rfl
@[simp] theorem State.pinMode_pin (s : State) (m : PinMode) : (s.pinMode m).pin = s.pin := rfl
@[simp] theorem State.pinMode_lastMs (s : State) (m : PinMode) : (s.pinMode m).lastMs = s.lastMs := rfl
@[simp] theorem State.pinMode_lastOk (s : State) (m : PinMode) : (s.pinMode m).lastOk = s.lastOk := rfl
@[simp] theorem State.pinMode_frame (s : State) (m : PinMode) : (s.pinMode m).frame = s.frame := rfl
@[simp] theorem State.pinMode_dur (s : State) (m : PinMode) : (s.pinMode m).dur = s.dur := rfl
@[simp] theorem State.pinMode_cnt (s : State) (m : PinMode) : (s.pinMode m).cnt = s.cnt := rfl
@[simp] theorem State.pinMode_phase (s : State) (m : PinMode) : (s.pinMode m).phase = s.phase := rfl
@[simp] theorem State.pinMode_idx (s : State) (m : PinMode) : (s.pinMode m).idx = s.idx := rfl
@[simp] theorem State.pinMode_crit (s : State) (m : PinMode) : (s.pinMode m).crit = s.crit := rfl
@[simp] theorem State.pinMode_mode (s : State) (m : PinMode) : (s.pinMode m).mode = m := rfl
@[simp] theorem State.pinMode_drv (s : State) (m : PinMode) : (s.pinMode m).drv = s.drv := rfl
@[simp] theorem State.pinMode_rsp (s : State) (m : PinMode) : (s.pinMode m).rsp = s.rsp := rfl
@[simp] theorem State.pinMode_rspValid (s : State) (m : PinMode) : (s.pinMode m).rspValid = s.rspValid := rfl
@[simp] theorem State.pinMode_cur (s : State) (m : PinMode) : (s.pinMode m).cur = s.cur := rfl
@[simp] theorem State.pinMode_ret (s : State) (m : PinMode) : (s.pinMode m).ret = s.ret := rfl
@[simp] theorem State.pinMode_grain (s : State) (m : PinMode) : (s.pinMode m).grain = s.grain := rfl
@[simp] theorem State.pinMode_cfg (s : State) (m : PinMode) : (s.pinMode m).cfg = s.cfg := rfl
@[simp] theorem State.pinMode_rst (s : State) (m : PinMode) : (s.pinMode m).rst = s.rst := rfl
@[simp] theorem State.pinMode_cmds (s : State) (m : PinMode) : (s.pinMode m).cmds = s.cmds := rfl
@[simp] theorem State.pinMode_line (s : State) (m : PinMode) : (s.pinMode m).line = s.line := rfl
@[simp] theorem State.pinMode_lineDraws (s : State) (m : PinMode) : (s.pinMode m).lineDraws = s.lineDraws := rfl
@[simp] theorem State.pinMode_time (s : State) (m : PinMode) : (s.pinMode m).time = s.time := rfl
@[simp] theorem State.pinMode_clock (s : State) (m : PinMode) : (s.pinMode m).clock = s.clock := rfl
@[simp] theorem State.pinMode_clockDraws (s : State) (m : PinMode) : (s.pinMode m).clockDraws = s.clockDraws := rfl
@[simp] theorem State.pinMode_trace (s : State) (m : PinMode) : (s.pinMode m).trace = s.trace ++ [.mode m] := rfl

@[simp] theorem State.lineWrite_bound (s : State) (v : Level) : (s.lineWrite v).bound = s.bound := rfl
@[simp] theorem State.lineWrite_pin (s : State) (v : Level) : (s.lineWrite v).pin = s.pin := rfl
@[simp] theorem State.lineWrite_lastMs (s : State) (v : Level) : (s.lineWrite v).lastMs = s.lastMs := rfl
@[simp] theorem State.lineWrite_lastOk (s : State) (v : Level) : (s.lineWrite v).lastOk = s.lastOk := rfl
@[simp] theorem State.lineWrite_frame (s : State) (v : Level) : (s.lineWrite v).frame = s.frame := rfl
@[simp] theorem State.lineWrite_dur (s : State) (v : Level) : (s.lineWrite v).dur = s.dur := rfl
@[simp] theorem State.lineWrite_cnt (s : State) (v : Level) : (s.lineWrite v).cnt = s.cnt := rfl
@[simp] theorem State.lineWrite_phase (s : State) (v : Level) : (s.lineWrite v).phase = s.phase := rfl
@[simp] theorem State.lineWrite_idx (s : State) (v : Level) : (s.lineWrite v).idx = s.idx := rfl
@[simp] theorem State.lineWrite_crit (s : State) (v : Level) : (s.lineWrite v).crit = s.crit := rfl
@[simp] theorem State.lineWrite_mode (s : State) (v : Level) : (s.lineWrite v).mode = s.mode := rfl
@[simp] theorem State.lineWrite_drv (s : State) (v : Level) : (s.lineWrite v).drv = v := rfl
@[simp] theorem State.lineWrite_rsp (s : State) (v : Level) : (s.lineWrite v).rsp = s.rsp := rfl
@[simp] theorem State.lineWrite_rspValid (s : State) (v : Level) : (s.lineWrite v).rspValid = s.rspValid := rfl
@[simp] theorem State.lineWrite_cur (s : State) (v : Level) : (s.lineWrite v).cur = s.cur := rfl
@[simp] theorem State.lineWrite_ret (s : State) (v : Level) : (s.lineWrite v).ret = s.ret := rfl
@[simp] theorem State.lineWrite_grain (s : State) (v : Level) : (s.lineWrite v).grain = s.grain := rfl
@[simp] theorem State.lineWrite_cfg (s : State) (v : Level) : (s.lineWrite v).cfg = s.cfg := rfl
@[simp] theorem State.lineWrite_rst (s : State) (v : Level) : (s.lineWrite v).rst = s.rst := rfl
@[simp] theorem State.lineWrite_cmds (s : State) (v : Level) : (s.lineWrite v).cmds = s.cmds := rfl
@[simp] theorem State.lineWrite_line (s : State) (v : Level) : (s.lineWrite v).line = s.line := rfl
@[simp] theorem State.lineWrite_lineDraws (s : State) (v : Level) : (s.lineWrite v).lineDraws = s.lineDraws := rfl
@[simp] theorem State.lineWrite_time (s : State) (v : Level) : (s.lineWrite v).time = s.time := rfl
@[simp] theorem State.lineWrite_clock (s : State) (v : Level) : (s.lineWrite v).clock = s.clock := rfl
@[simp] theorem State.lineWrite_clockDraws (s : State) (v : Level) : (s.lineWrite v).clockDraws = s.clockDraws := rfl
@[simp] theorem State.lineWrite_trace (s : State) (v : Level) : (s.lineWrite v).trace = s.trace ++ [.write v] := rfl

@[simp] theorem State.delayMs_bound (s : State) (n : Nat) : (s.delayMs n).bound = s.bound := rfl
@[simp] theorem State.delayMs_pin (s : State) (n : Nat) : (s.delayMs n).pin = s.pin := rfl
@[simp] theorem State.delayMs_lastMs (s : State) (n : Nat) : (s.delayMs n).lastMs = s.lastMs := rfl
@[simp] theorem State.delayMs_lastOk (s : State) (n : Nat) : (s.delayMs n).lastOk = s.lastOk := rfl
@[simp] theorem State.delayMs_frame (s : State) (n : Nat) : (s.delayMs n).frame = s.frame := rfl
@[simp] theorem State.delayMs_dur (s : State) (n : Nat) : (s.delayMs n).dur = s.dur := rfl
@[simp] theorem State.delayMs_cnt (s : State) (n : Nat) : (s.delayMs n).cnt = s.cnt := rfl
@[simp] theorem State.delayMs_phase (s : State) (n : Nat) : (s.delayMs n).phase = s.phase := rfl
@[simp] theorem State.delayMs_idx (s : State) (n : Nat) : (s.delayMs n).idx = s.idx := rfl
@[simp] theorem State.delayMs_crit (s : State) (n : Nat) : (s.delayMs n).crit = s.crit := rfl
@[simp] theorem State.delayMs_mode (s : State) (n : Nat) : (s.delayMs n).mode = s.mode := rfl
@[simp] theorem State.delayMs_drv (s : State) (n : Nat) : (s.delayMs n).drv = s.drv := rfl
@[simp] theorem State.delayMs_rsp (s : State) (n : Nat) : (s.delayMs n).rsp = s.rsp := rfl
@[simp] theorem State.delayMs_rspValid (s : State) (n : Nat) : (s.delayMs n).rspValid = s.rspValid := rfl
@[simp] theorem State.delayMs_cur (s : State) (n : Nat) : (s.delayMs n).cur = s.cur := rfl
@[simp] theorem State.delayMs_ret (s : State) (n : Nat) : (s.delayMs n).ret = s.ret := rfl
@[simp] theorem State.delayMs_grain (s : State) (n : Nat) : (s.delayMs n).grain = s.grain := rfl
@[simp] theorem State.delayMs_cfg (s : State) (n : Nat) : (s.delayMs n).cfg = s.cfg := rfl
@[simp] theorem State.delayMs_rst (s : State) (n : Nat) : (s.delayMs n).rst = s.rst := rfl
@[simp] theorem State.delayMs_cmds (s : State) (n : Nat) : (s.delayMs n).cmds = s.cmds := rfl
@[simp] theorem State.delayMs_line (s : State) (n : Nat) : (s.delayMs n).line = s.line := rfl
@[simp] theorem State.delayMs_lineDraws (s : State) (n : Nat) : (s.delayMs n).lineDraws = s.lineDraws := rfl
@[simp] theorem State.delayMs_time (s : State) (n : Nat) : (s.delayMs n).time = s.time := rfl
@[simp] theorem State.delayMs_clock (s : State) (n : Nat) : (s.delayMs n).clock = s.clock := rfl
@[simp] theorem State.delayMs_clockDraws (s : State) (n : Nat) : (s.delayMs n).clockDraws = s.clockDraws := rfl
@[simp] theorem State.delayMs_trace (s : State) (n : Nat) : (s.delayMs n).trace = s.trace ++ [.delayMs n] := rfl

@[simp] theorem State.delayUs_bound (s : State) (n : Nat) : (s.delayUs n).bound = s.bound := rfl
@[simp] theorem State.delayUs_pin (s : State) (n : Nat) : (s.delayUs n).pin = s.pin := rfl
@[simp] theorem State.delayUs_lastMs (s : State) (n : Nat) : (s.delayUs n).lastMs = s.lastMs := rfl
@[simp] theorem State.delayUs_lastOk (s : State) (n : Nat) : (s.delayUs n).lastOk = s.lastOk := rfl
@[simp] theorem State.delayUs_frame (s : State) (n : Nat) : (s.delayUs n).frame = s.frame := rfl
@[simp] theorem State.delayUs_dur (s : State) (n : Nat) : (s.delayUs n).dur = s.dur := rfl
@[simp] theorem State.delayUs_cnt (s : State) (n : Nat) : (s.delayUs n).cnt = s.cnt := rfl
@[simp] theorem State.delayUs_phase (s : State) (n : Nat) : (s.delayUs n).phase = s.phase := rfl
@[simp] theorem State.delayUs_idx (s : State) (n : Nat) : (s.delayUs n).idx = s.idx := rfl
@[simp] theorem State.delayUs_crit (s : State) (n : Nat) : (s.delayUs n).crit = s.crit := rfl
@[simp] theorem State.delayUs_mode (s : State) (n : Nat) : (s.delayUs n).mode = s.mode := rfl
@[simp] theorem State.delayUs_drv (s : State) (n : Nat) : (s.delayUs n).drv = s.drv := rfl
@[simp] theorem State.delayUs_rsp (s : State) (n : Nat) : (s.delayUs n).rsp = s.rsp := rfl
@[simp] theorem State.delayUs_rspValid (s : State) (n : Nat) : (s.delayUs n).rspValid = s.rspValid := rfl
@[simp] theorem State.delayUs_cur (s : State) (n : Nat) : (s.delayUs n).cur = s.cur := rfl
@[simp] theorem State.delayUs_ret (s : State) (n : Nat) : (s.delayUs n).ret = s.ret := rfl
@[simp] theorem State.delayUs_grain (s : State) (n : Nat) : (s.delayUs n).grain = s.grain := rfl
@[simp] theorem State.delayUs_cfg (s : State) (n : Nat) : (s.delayUs n).cfg = s.cfg := rfl
@[simp] theorem State.delayUs_rst (s : State) (n : Nat) : (s.delayUs n).rst = s.rst := rfl
@[simp] theorem State.delayUs_cmds (s : State) (n : Nat) : (s.delayUs n).cmds = s.cmds := rfl
@[simp] theorem State.delayUs_line (s : State) (n : Nat) : (s.delayUs n).line = s.line := rfl
@[simp] theorem State.delayUs_lineDraws (s : State) (n : Nat) : (s.delayUs n).lineDraws = s.lineDraws := rfl
@[simp] theorem State.delayUs_time (s : State) (n : Nat) : (s.delayUs n).time = s.time := rfl
@[simp] theorem State.delayUs_clock (s : State) (n : Nat) : (s.delayUs n).clock = s.clock := rfl
@[simp] theorem State.delayUs_clockDraws (s : State) (n : Nat) : (s.delayUs n).clockDraws = s.clockDraws := rfl
@[simp] theorem State.delayUs_trace (s : State) (n : Nat) : (s.delayUs n).trace = s.trace ++ [.delayUs n] := rfl

@[simp] theorem State.critEnter_bound (s : State) : (s.critEnter).bound = s.bound := rfl
@[simp] theorem State.critEnter_pin (s : State) : (s.critEnter).pin = s.pin := rfl
@[simp] theorem State.critEnter_lastMs (s : State) : (s.critEnter).lastMs = s.lastMs := rfl
@[simp] theorem State.critEnter_lastOk (s : State) : (s.critEnter).lastOk = s.lastOk := rfl
@[simp] theorem State.critEnter_frame (s : State) : (s.critEnter).frame = s.frame := rfl
@[simp] theorem State.critEnter_dur (s : State) : (s.critEnter).dur = s.dur := rfl
@[simp] theorem State.critEnter_cnt (s : State) : (s.critEnter).cnt = s.cnt := rfl
@[simp] theorem State.critEnter_phase (s : State) : (s.critEnter).phase = s.phase := rfl
@[simp] theorem State.critEnter_idx (s : State) : (s.critEnter).idx = s.idx := rfl
@[simp] theorem State.critEnter_crit (s : State) : (s.critEnter).crit = true := rfl
@[simp] theorem State.critEnter_mode (s : State) : (s.critEnter).mode = s.mode := rfl
@[simp] theorem State.critEnter_drv (s : State) : (s.critEnter).drv = s.drv := rfl
@[simp] theorem State.critEnter_rsp (s : State) : (s.critEnter).rsp = s.rsp := rfl
@[simp] theorem State.critEnter_rspValid (s : State) : (s.critEnter).rspValid = s.rspValid := rfl
@[simp] theorem State.critEnter_cur (s : State) : (s.critEnter).cur = s.cur := rfl
@[simp] theorem State.critEnter_ret (s : State) : (s.critEnter).ret = s.ret := rfl
@[simp] theorem State.critEnter_grain (s : State) : (s.critEnter).grain = s.grain := rfl
@[simp] theorem State.critEnter_cfg (s : State) : (s.critEnter).cfg = s.cfg := rfl
@[simp] theorem State.critEnter_rst (s : State) : (s.critEnter).rst = s.rst := rfl
@[simp] theorem State.critEnter_cmds (s : State) : (s.critEnter).cmds = s.cmds := rfl
@[simp] theorem State.critEnter_line (s : State) : (s.critEnter).line = s.line := rfl
@[simp] theorem State.critEnter_lineDraws (s : State) : (s.critEnter).lineDraws = s.lineDraws := rfl
@[simp] theorem State.critEnter_time (s : State) : (s.critEnter).time = s.time := rfl
@[simp] theorem State.critEnter_clock (s : State) : (s.critEnter).clock = s.clock := rfl
@[simp] theorem State.critEnter_clockDraws (s : State) : (s.critEnter).clockDraws = s.clockDraws := rfl
@[simp] theorem State.critEnter_trace (s : State) : (s.critEnter).trace = s.trace ++ [.critEnter] := rfl

@[simp] theorem State.critExit_bound (s : State) : (s.critExit).bound = s.bound := rfl
@[simp] theorem State.critExit_pin (s : State) : (s.critExit).pin = s.pin := rfl
@[simp] theorem State.critExit_lastMs (s : State) : (s.critExit).lastMs = s.lastMs := rfl
@[simp] theorem State.critExit_lastOk (s : State) : (s.critExit).lastOk = s.lastOk := rfl
@[simp] theorem State.critExit_frame (s : State) : (s.critExit).frame = s.frame := rfl
@[simp] theorem State.critExit_dur (s : State) : (s.critExit).dur = s.dur := rfl
@[simp] theorem State.critExit_cnt (s : State) : (s.critExit).cnt = s.cnt := rfl
@[simp] theorem State.critExit_phase (s : State) : (s.critExit).phase = s.phase := rfl
@[simp] theorem State.critExit_idx (s : State) : (s.critExit).idx = s.idx := rfl
@[simp] theorem State.critExit_crit (s : State) : (s.critExit).crit = false := rfl
@[simp] theorem State.critExit_mode (s : State) : (s.critExit).mode = s.mode := rfl
@[simp] theorem State.critExit_drv (s : State) : (s.critExit).drv = s.drv := rfl
@[simp] theorem State.critExit_rsp (s : State) : (s.critExit).rsp = s.rsp := rfl
@[simp] theorem State.critExit_rspValid (s : State) : (s.critExit).rspValid = s.rspValid := rfl
@[simp] theorem State.critExit_cur (s : State) : (s.critExit).cur = s.cur := rfl
@[simp] theorem State.critExit_ret (s : State) : (s.critExit).ret = s.ret := rfl
@[simp] theorem State.critExit_grain (s : State) : (s.critExit).grain = s.grain := rfl
@[simp] theorem State.critExit_cfg (s : State) : (s.critExit).cfg = s.cfg := rfl
@[simp] theorem State.critExit_rst (s : State) : (s.critExit).rst = s.rst := rfl
@[simp] theorem State.critExit_cmds (s : State) : (s.critExit).cmds = s.cmds := rfl
@[simp] theorem State.critExit_line (s : State) : (s.critExit).line = s.line := rfl
@[simp] theorem State.critExit_lineDraws (s : State) : (s.critExit).lineDraws = s.lineDraws := rfl
@[simp] theorem State.critExit_time (s : State) : (s.critExit).time = s.time := rfl
@[simp] theorem State.critExit_clock (s : State) : (s.critExit).clock = s.clock := rfl
@[simp] theorem State.critExit_clockDraws (s : State) : (s.critExit).clockDraws = s.clockDraws := rfl
@[simp] theorem State.critExit_trace (s : State) : (s.critExit).trace = s.trace ++ [.critExit] := rfl

@[simp] theorem State.deliver_bound (s : State) (c : Current) (r : Response) : (s.deliver c r).bound = s.bound := rfl
@[simp] theorem State.deliver_pin (s : State) (c : Current) (r : Response) : (s.deliver c r).pin = s.pin := rfl
@[simp] theorem State.deliver_lastMs (s : State) (c : Current) (r : Response) : (s.deliver c r).lastMs = s.lastMs := rfl
@[simp] theorem State.deliver_lastOk (s : State) (c : Current) (r : Response) : (s.deliver c r).lastOk = s.lastOk := rfl
@[simp] theorem State.deliver_frame (s : State) (c : Current) (r : Response) : (s.deliver c r).frame = s.frame := rfl
@[simp] theorem State.deliver_dur (s : State) (c : Current) (r : Response) : (s.deliver c r).dur = s.dur := rfl
@[simp] theorem State.deliver_cnt (s : State) (c : Current) (r : Response) : (s.deliver c r).cnt = s.cnt := rfl
@[simp] theorem State.deliver_phase (s : State) (c : Current) (r : Response) : (s.deliver c r).phase = .idle := rfl
@[simp] theorem State.deliver_idx (s : State) (c : Current) (r : Response) : (s.deliver c r).idx = s.idx := rfl
@[simp] theorem State.deliver_crit (s : State) (c : Current) (r : Response) : (s.deliver c r).crit = s.crit := rfl
@[simp] theorem State.deliver_mode (s : State) (c : Current) (r : Response) : (s.deliver c r).mode = s.mode := rfl
@[simp] theorem State.deliver_drv (s : State) (c : Current) (r : Response) : (s.deliver c r).drv = s.drv := rfl
@[simp] theorem State.deliver_rsp (s : State) (c : Current) (r : Response) : (s.deliver c r).rsp = r := rfl
@[simp] theorem State.deliver_rspValid (s : State) (c : Current) (r : Response) : (s.deliver c r).rspValid = true := rfl
@[simp] theorem State.deliver_cur (s : State) (c : Current) (r : Response) : (s.deliver c r).cur = c := rfl
@[simp] theorem State.deliver_ret (s : State) (c : Current) (r : Response) : (s.deliver c r).ret = s.ret := rfl
@[simp] theorem State.deliver_grain (s : State) (c : Current) (r : Response) : (s.deliver c r).grain = s.grain := rfl
@[simp] theorem State.deliver_cfg (s : State) (c : Current) (r : Response) : (s.deliver c r).cfg = s.cfg := rfl
@[simp] theorem State.deliver_rst (s : State) (c : Current) (r : Response) : (s.deliver c r).rst = s.rst := rfl
@[simp] theorem State.deliver_cmds (s : State) (c : Current) (r : Response) : (s.deliver c r).cmds = s.cmds := rfl
@[simp] theorem State.deliver_line (s : State) (c : Current) (r : Response) : (s.deliver c r).line = s.line := rfl
@[simp] theorem State.deliver_lineDraws (s : State) (c : Current) (r : Response) : (s.deliver c r).lineDraws = s.lineDraws := rfl
@[simp] theorem State.deliver_time (s : State) (c : Current) (r : Response) : (s.deliver c r).time = s.time := rfl
@[simp] theorem State.deliver_clock (s : State) (c : Current) (r : Response) : (s.deliver c r).clock = s.clock := rfl
@[simp] theorem State.deliver_clockDraws (s : State) (c : Current) (r : Response) : (s.deliver c r).clockDraws = s.clockDraws := rfl
@[simp] theorem State.deliver_trace (s : State) (c : Current) (r : Response) : (s.deliver c r).trace = s.trace := rfl

@[simp] theorem State.refuse_bound (s : State) : (s.refuse).bound = s.bound := rfl
@[simp] theorem State.refuse_pin (s : State) : (s.refuse).pin = s.pin := rfl
@[simp] theorem State.refuse_lastMs (s : State) : (s.refuse).lastMs = s.lastMs := rfl
@[simp] theorem State.refuse_lastOk (s : State) : (s.refuse).lastOk = s.lastOk := rfl
@[simp] theorem State.refuse_frame (s : State) : (s.refuse).frame = s.frame := rfl
@[simp] theorem State.refuse_dur (s : State) : (s.refuse).dur = s.dur := rfl
@[simp] theorem State.refuse_cnt (s : State) : (s.refuse).cnt = s.cnt := rfl
@[simp] theorem State.refuse_phase (s : State) : (s.refuse).phase = .idle := rfl
@[simp] theorem State.refuse_idx (s : State) : (s.refuse).idx = s.idx := rfl
@[simp] theorem State.refuse_crit (s : State) : (s.refuse).crit = s.crit := rfl
@[simp] theorem State.refuse_mode (s : State) : (s.refuse).mode = s.mode := rfl
@[simp] theorem State.refuse_drv (s : State) : (s.refuse).drv = s.drv := rfl
@[simp] theorem State.refuse_rsp (s : State) : (s.refuse).rsp = .err := rfl
@[simp] theorem State.refuse_rspValid (s : State) : (s.refuse).rspValid = true := rfl
@[simp] theorem State.refuse_cur (s : State) : (s.refuse).cur = .refused := rfl
@[simp] theorem State.refuse_ret (s : State) : (s.refuse).ret = s.ret := rfl
@[simp] theorem State.refuse_grain (s : State) : (s.refuse).grain = s.grain := rfl
@[simp] theorem State.refuse_cfg (s : State) : (s.refuse).cfg = s.cfg := rfl
@[simp] theorem State.refuse_rst (s : State) : (s.refuse).rst = s.rst := rfl
@[simp] theorem State.refuse_cmds (s : State) : (s.refuse).cmds = s.cmds := rfl
@[simp] theorem State.refuse_line (s : State) : (s.refuse).line = s.line := rfl
@[simp] theorem State.refuse_lineDraws (s : State) : (s.refuse).lineDraws = s.lineDraws := rfl
@[simp] theorem State.refuse_time (s : State) : (s.refuse).time = s.time := rfl
@[simp] theorem State.refuse_clock (s : State) : (s.refuse).clock = s.clock := rfl
@[simp] theorem State.refuse_clockDraws (s : State) : (s.refuse).clockDraws = s.clockDraws := rfl
@[simp] theorem State.refuse_trace (s : State) : (s.refuse).trace = s.trace := rfl

@[simp] theorem goto_bound (s : State) (p : Phase) : (goto s p).bound = s.bound := rfl
@[simp] theorem goto_pin (s : State) (p : Phase) : (goto s p).pin = s.pin := rfl
@[simp] theorem goto_lastMs (s : State) (p : Phase) : (goto s p).lastMs = s.lastMs := rfl
@[simp] theorem goto_lastOk (s : State) (p : Phase) : (goto s p).lastOk = s.lastOk := rfl
@[simp] theorem goto_frame (s : State) (p : Phase) : (goto s p).frame = s.frame := rfl
@[simp] theorem goto_dur (s : State) (p : Phase) : (goto s p).dur = s.dur := rfl
@[simp] theorem goto_cnt (s : State) (p : Phase) : (goto s p).cnt = s.cnt := rfl
@[simp] theorem goto_phase (s : State) (p : Phase) : (goto s p).phase = p := rfl
@[simp] theorem goto_idx (s : State) (p : Phase) : (goto s p).idx = s.idx := rfl
@[simp] theorem goto_crit (s : State) (p : Phase) : (goto s p).crit = s.crit := rfl
@[simp] theorem goto_mode (s : State) (p : Phase) : (goto s p).mode = s.mode := rfl
@[simp] theorem goto_drv (s : State) (p : Phase) : (goto s p).drv = s.drv := rfl
@[simp] theorem goto_rsp (s : State) (p : Phase) : (goto s p).rsp = s.rsp := rfl
@[simp] theorem goto_rspValid (s : State) (p : Phase) : (goto s p).rspValid = s.rspValid := rfl
@[simp] theorem goto_cur (s : State) (p : Phase) : (goto s p).cur = s.cur := rfl
@[simp] theorem goto_ret (s : State) (p : Phase) : (goto s p).ret = s.ret := rfl
@[simp] theorem goto_grain (s : State) (p : Phase) : (goto s p).grain = s.grain := rfl
@[simp] theorem goto_cfg (s : State) (p : Phase) : (goto s p).cfg = s.cfg := rfl
@[simp] theorem goto_rst (s : State) (p : Phase) : (goto s p).rst = s.rst := rfl
@[simp] theorem goto_cmds (s : State) (p : Phase) : (goto s p).cmds = s.cmds := rfl
@[simp] theorem goto_line (s : State) (p : Phase) : (goto s p).line = s.line := rfl
@[simp] theorem goto_lineDraws (s : State) (p : Phase) : (goto s p).lineDraws = s.lineDraws := rfl
@[simp] theorem goto_time (s : State) (p : Phase) : (goto s p).time = s.time := rfl
@[simp] theorem goto_clock (s : State) (p : Phase) : (goto s p).clock = s.clock := rfl
@[simp] theorem goto_clockDraws (s : State) (p : Phase) : (goto s p).clockDraws = s.clockDraws := rfl
@[simp] theorem goto_trace (s : State) (p : Phase) : (goto s p).trace = s.trace := rfl

@[simp] theorem toRespond_bound (s : State) (c : Current) : (toRespond s c).bound = s.bound := rfl
@[simp] theorem toRespond_pin (s : State) (c : Current) : (toRespond s c).pin = s.pin := rfl
@[simp] theorem toRespond_lastMs (s : State) (c : Current) : (toRespond s c).lastMs = s.lastMs := rfl
@[simp] theorem toRespond_lastOk (s : State) (c : Current) : (toRespond s c).lastOk = s.lastOk := rfl
@[simp] theorem toRespond_frame (s : State) (c : Current) : (toRespond s c).frame = s.frame := rfl
@[simp] theorem toRespond_dur (s : State) (c : Current) : (toRespond s c).dur = s.dur := rfl
@[simp] theorem toRespond_cnt (s : State) (c : Current) : (toRespond s c).cnt = s.cnt := rfl
@[simp] theorem toRespond_phase (s : State) (c : Current) : (toRespond s c).phase = .respond := rfl
@[simp] theorem toRespond_idx (s : State) (c : Current) : (toRespond s c).idx = s.idx := rfl
@[simp] theorem toRespond_crit (s : State) (c : Current) : (toRespond s c).crit = s.crit := rfl
@[simp] theorem toRespond_mode (s : State) (c : Current) : (toRespond s c).mode = s.mode := rfl
@[simp] theorem toRespond_drv (s : State) (c : Current) : (toRespond s c).drv = s.drv := rfl
@[simp] theorem toRespond_rsp (s : State) (c : Current) : (toRespond s c).rsp = s.rsp := rfl
@[simp] theorem toRespond_rspValid (s : State) (c : Current) : (toRespond s c).rspValid = s.rspValid := rfl
@[simp] theorem toRespond_cur (s : State) (c : Current) : (toRespond s c).cur = c := rfl
@[simp] theorem toRespond_ret (s : State) (c : Current) : (toRespond s c).ret = s.ret := rfl
@[simp] theorem toRespond_grain (s : State) (c : Current) : (toRespond s c).grain = s.grain := rfl
@[simp] theorem toRespond_cfg (s : State) (c : Current) : (toRespond s c).cfg = s.cfg := rfl
@[simp] theorem toRespond_rst (s : State) (c : Current) : (toRespond s c).rst = s.rst := rfl
@[simp] theorem toRespond_cmds (s : State) (c : Current) : (toRespond s c).cmds = s.cmds := rfl
@[simp] theorem toRespond_line (s : State) (c : Current) : (toRespond s c).line = s.line := rfl
@[simp] theorem toRespond_lineDraws (s : State) (c : Current) : (toRespond s c).lineDraws = s.lineDraws := rfl
@[simp] theorem toRespond_time (s : State) (c : Current) : (toRespond s c).time = s.time := rfl
@[simp] theorem toRespond_clock (s : State) (c : Current) : (toRespond s c).clock = s.clock := rfl
@[simp] theorem toRespond_clockDraws (s : State) (c : Current) : (toRespond s c).clockDraws = s.clockDraws := rfl
@[simp] theorem toRespond_trace (s : State) (c : Current) : (toRespond s c).trace = s.trace := rfl

@[simp] theorem clearFrame_bound (s : State) : (clearFrame s).bound = s.bound := rfl
@[simp] theorem clearFrame_pin (s : State) : (clearFrame s).pin = s.pin := rfl
@[simp] theorem clearFrame_lastMs (s : State) : (clearFrame s).lastMs = s.lastMs := rfl
@[simp] theorem clearFrame_lastOk (s : State) : (clearFrame s).lastOk = s.lastOk := rfl
@[simp] theorem clearFrame_frame (s : State) : (clearFrame s).frame = Vector.replicate 5 0 := rfl
@[simp] theorem clearFrame_dur (s : State) : (clearFrame s).dur = s.dur := rfl
@[simp] theorem clearFrame_cnt (s : State) : (clearFrame s).cnt = s.cnt := rfl
@[simp] theorem clearFrame_phase (s : State) : (clearFrame s).phase = s.phase := rfl
@[simp] theorem clearFrame_idx (s : State) : (clearFrame s).idx = s.idx := rfl
@[simp] theorem clearFrame_crit (s : State) : (clearFrame s).crit = s.crit := rfl
@[simp] theorem clearFrame_mode (s : State) : (clearFrame s).mode = s.mode := rfl
@[simp] theorem clearFrame_drv (s : State) : (clearFrame s).drv = s.drv := rfl
@[simp] theorem clearFrame_rsp (s : State) : (clearFrame s).rsp = s.rsp := rfl
@[simp] theorem clearFrame_rspValid (s : State) : (clearFrame s).rspValid = s.rspValid := rfl
@[simp] theorem clearFrame_cur (s : State) : (clearFrame s).cur = s.cur := rfl
@[simp] theorem clearFrame_ret (s : State) : (clearFrame s).ret = s.ret := rfl
@[simp] theorem clearFrame_grain (s : State) : (clearFrame s).grain = s.grain := rfl
@[simp] theorem clearFrame_cfg (s : State) : (clearFrame s).cfg = s.cfg := rfl
@[simp] theorem clearFrame_rst (s : State) : (clearFrame s).rst = s.rst := rfl
@[simp] theorem clearFrame_cmds (s : State) : (clearFrame s).cmds = s.cmds := rfl
@[simp] theorem clearFrame_line (s : State) : (clearFrame s).line = s.line := rfl
@[simp] theorem clearFrame_lineDraws (s : State) : (clearFrame s).lineDraws = s.lineDraws := rfl
@[simp] theorem clearFrame_time (s : State) : (clearFrame s).time = s.time := rfl
@[simp] theorem clearFrame_clock (s : State) : (clearFrame s).clock = s.clock := rfl
@[simp] theorem clearFrame_clockDraws (s : State) : (clearFrame s).clockDraws = s.clockDraws := rfl
@[simp] theorem clearFrame_trace (s : State) : (clearFrame s).trace = s.trace := rfl

@[simp] theorem packCurrent_bound (s : State) : (packCurrent s).bound = s.bound := rfl
@[simp] theorem packCurrent_pin (s : State) : (packCurrent s).pin = s.pin := rfl
@[simp] theorem packCurrent_lastMs (s : State) : (packCurrent s).lastMs = s.lastMs := rfl
@[simp] theorem packCurrent_lastOk (s : State) : (packCurrent s).lastOk = s.lastOk := rfl
@[simp] theorem packCurrent_frame (s : State) : (packCurrent s).frame = decodeBit s.dur s.frame s.idx := rfl
@[simp] theorem packCurrent_dur (s : State) : (packCurrent s).dur = s.dur := rfl
@[simp] theorem packCurrent_cnt (s : State) : (packCurrent s).cnt = s.cnt := rfl
@[simp] theorem packCurrent_phase (s : State) : (packCurrent s).phase = s.phase := rfl
@[simp] theorem packCurrent_idx (s : State) : (packCurrent s).idx = s.idx := rfl
@[simp] theorem packCurrent_crit (s : State) : (packCurrent s).crit = s.crit := rfl
@[simp] theorem packCurrent_mode (s : State) : (packCurrent s).mode = s.mode := rfl
@[simp] theorem packCurrent_drv (s : State) : (packCurrent s).drv = s.drv := rfl
@[simp] theorem packCurrent_rsp (s : State) : (packCurrent s).rsp = s.rsp := rfl
@[simp] theorem packCurrent_rspValid (s : State) : (packCurrent s).rspValid = s.rspValid := rfl
@[simp] theorem packCurrent_cur (s : State) : (packCurrent s).cur = s.cur := rfl
@[simp] theorem packCurrent_ret (s : State) : (packCurrent s).ret = s.ret := rfl
@[simp] theorem packCurrent_grain (s : State) : (packCurrent s).grain = s.grain := rfl
@[simp] theorem packCurrent_cfg (s : State) : (packCurrent s).cfg = s.cfg := rfl
@[simp] theorem packCurrent_rst (s : State) : (packCurrent s).rst = s.rst := rfl
@[simp] theorem packCurrent_cmds (s : State) : (packCurrent s).cmds = s.cmds := rfl
@[simp] theorem packCurrent_line (s : State) : (packCurrent s).line = s.line := rfl
@[simp] theorem packCurrent_lineDraws (s : State) : (packCurrent s).lineDraws = s.lineDraws := rfl
@[simp] theorem packCurrent_time (s : State) : (packCurrent s).time = s.time := rfl
@[simp] theorem packCurrent_clock (s : State) : (packCurrent s).clock = s.clock := rfl
@[simp] theorem packCurrent_clockDraws (s : State) : (packCurrent s).clockDraws = s.clockDraws := rfl
@[simp] theorem packCurrent_trace (s : State) : (packCurrent s).trace = s.trace := rfl

@[simp] theorem startPrePart_bound (s : State) : (startPrePart s).bound = s.bound := rfl
@[simp] theorem startPrePart_pin (s : State) : (startPrePart s).pin = s.pin := rfl
@[simp] theorem startPrePart_lastMs (s : State) : (startPrePart s).lastMs = s.lastMs := rfl
@[simp] theorem startPrePart_lastOk (s : State) : (startPrePart s).lastOk = s.lastOk := rfl
@[simp] theorem startPrePart_frame (s : State) : (startPrePart s).frame = s.frame := rfl
@[simp] theorem startPrePart_dur (s : State) : (startPrePart s).dur = s.dur := rfl
@[simp] theorem startPrePart_cnt (s : State) : (startPrePart s).cnt = s.cnt := rfl
@[simp] theorem startPrePart_phase (s : State) : (startPrePart s).phase = s.phase := rfl
@[simp] theorem startPrePart_idx (s : State) : (startPrePart s).idx = s.idx := rfl
@[simp] theorem startPrePart_crit (s : State) : (startPrePart s).crit = s.crit := rfl
@[simp] theorem startPrePart_mode (s : State) : (startPrePart s).mode = .inputPullup := rfl
@[simp] theorem startPrePart_drv (s : State) : (startPrePart s).drv = s.drv := rfl
@[simp] theorem startPrePart_rsp (s : State) : (startPrePart s).rsp = s.rsp := rfl
@[simp] theorem startPrePart_rspValid (s : State) : (startPrePart s).rspValid = s.rspValid := rfl
@[simp] theorem startPrePart_cur (s : State) : (startPrePart s).cur = s.cur := rfl
@[simp] theorem startPrePart_ret (s : State) : (startPrePart s).ret = s.ret := rfl
@[simp] theorem startPrePart_grain (s : State) : (startPrePart s).grain = s.grain := rfl
@[simp] theorem startPrePart_cfg (s : State) : (startPrePart s).cfg = s.cfg := rfl
@[simp] theorem startPrePart_rst (s : State) : (startPrePart s).rst = s.rst := rfl
@[simp] theorem startPrePart_cmds (s : State) : (startPrePart s).cmds = s.cmds := rfl
@[simp] theorem startPrePart_line (s : State) : (startPrePart s).line = s.line := rfl
@[simp] theorem startPrePart_lineDraws (s : State) : (startPrePart s).lineDraws = s.lineDraws := rfl
@[simp] theorem startPrePart_time (s : State) : (startPrePart s).time = s.time := rfl
@[simp] theorem startPrePart_clock (s : State) : (startPrePart s).clock = s.clock := rfl
@[simp] theorem startPrePart_clockDraws (s : State) : (startPrePart s).clockDraws = s.clockDraws := rfl
@[simp] theorem startPrePart_trace (s : State) : (startPrePart s).trace = s.trace ++ [.mode .inputPullup] ++ [.delayMs s.cfg.prePullupMs] := rfl

@[simp] theorem startLowPart_bound (s : State) : (startLowPart s).bound = s.bound := rfl
@[simp] theorem startLowPart_pin (s : State) : (startLowPart s).pin = s.pin := rfl
@[simp] theorem startLowPart_lastMs (s : State) : (startLowPart s).lastMs = s.lastMs := rfl
@[simp] theorem startLowPart_lastOk (s : State) : (startLowPart s).lastOk = s.lastOk := rfl
@[simp] theorem startLowPart_frame (s : State) : (startLowPart s).frame = s.frame := rfl
@[simp] theorem startLowPart_dur (s : State) : (startLowPart s).dur = s.dur := rfl
@[simp] theorem startLowPart_cnt (s : State) : (startLowPart s).cnt = s.cnt := rfl
@[simp] theorem startLowPart_phase (s : State) : (startLowPart s).phase = s.phase := rfl
@[simp] theorem startLowPart_idx (s : State) : (startLowPart s).idx = s.idx := rfl
@[simp] theorem startLowPart_crit (s : State) : (startLowPart s).crit = s.crit := rfl
@[simp] theorem startLowPart_mode (s : State) : (startLowPart s).mode = .output := rfl
@[simp] theorem startLowPart_drv (s : State) : (startLowPart s).drv = .low := rfl
@[simp] theorem startLowPart_rsp (s : State) : (startLowPart s).rsp = s.rsp := rfl
@[simp] theorem startLowPart_rspValid (s : State) : (startLowPart s).rspValid = s.rspValid := rfl
@[simp] theorem startLowPart_cur (s : State) : (startLowPart s).cur = s.cur := rfl
@[simp] theorem startLowPart_ret (s : State) : (startLowPart s).ret = s.ret := rfl
@[simp] theorem startLowPart_grain (s : State) : (startLowPart s).grain = s.grain := rfl
@[simp] theorem startLowPart_cfg (s : State) : (startLowPart s).cfg = s.cfg := rfl
@[simp] theorem startLowPart_rst (s : State) : (startLowPart s).rst = s.rst := rfl
@[simp] theorem startLowPart_cmds (s : State) : (startLowPart s).cmds = s.cmds := rfl
@[simp] theorem startLowPart_line (s : State) : (startLowPart s).line = s.line := rfl
@[simp] theorem startLowPart_lineDraws (s : State) : (startLowPart s).lineDraws = s.lineDraws := rfl
@[simp] theorem startLowPart_time (s : State) : (startLowPart s).time = s.time := rfl
@[simp] theorem startLowPart_clock (s : State) : (startLowPart s).clock = s.clock := rfl
@[simp] theorem startLowPart_clockDraws (s : State) : (startLowPart s).clockDraws = s.clockDraws := rfl
@[simp] theorem startLowPart_trace (s : State) : (startLowPart s).trace = s.trace ++ [.mode .output] ++ [.write .low] ++ [.delayMs 20] := rfl

@[simp] theorem startRelPart_bound (s : State) : (startRelPart s).bound = s.bound := rfl
@[simp] theorem startRelPart_pin (s : State) : (startRelPart s).pin = s.pin := rfl
@[simp] theorem startRelPart_lastMs (s : State) : (startRelPart s).lastMs = s.lastMs := rfl
@[simp] theorem startRelPart_lastOk (s : State) : (startRelPart s).lastOk = s.lastOk := rfl
@[simp] theorem startRelPart_frame (s : State) : (startRelPart s).frame = s.frame := rfl
@[simp] theorem startRelPart_dur (s : State) : (startRelPart s).dur = s.dur := rfl
@[simp] theorem startRelPart_cnt (s : State) : (startRelPart s).cnt = s.cnt := rfl
@[simp] theorem startRelPart_phase (s : State) : (startRelPart s).phase = s.phase := rfl
@[simp] theorem startRelPart_idx (s : State) : (startRelPart s).idx = s.idx := rfl
@[simp] theorem startRelPart_crit (s : State) : (startRelPart s).crit = s.crit := rfl
@[simp] theorem startRelPart_mode (s : State) : (startRelPart s).mode = .inputPullup := rfl
@[simp] theorem startRelPart_drv (s : State) : (startRelPart s).drv = s.drv := rfl
@[simp] theorem startRelPart_rsp (s : State) : (startRelPart s).rsp = s.rsp := rfl
@[simp] theorem startRelPart_rspValid (s : State) : (startRelPart s).rspValid = s.rspValid := rfl
@[simp] theorem startRelPart_cur (s : State) : (startRelPart s).cur = s.cur := rfl
@[simp] theorem startRelPart_ret (s : State) : (startRelPart s).ret = s.ret := rfl
@[simp] theorem startRelPart_grain (s : State) : (startRelPart s).grain = s.grain := rfl
@[simp] theorem startRelPart_cfg (s : State) : (startRelPart s).cfg = s.cfg := rfl
@[simp] theorem startRelPart_rst (s : State) : (startRelPart s).rst = s.rst := rfl
@[simp] theorem startRelPart_cmds (s : State) : (startRelPart s).cmds = s.cmds := rfl
@[simp] theorem startRelPart_line (s : State) : (startRelPart s).line = s.line := rfl
@[simp] theorem startRelPart_lineDraws (s : State) : (startRelPart s).lineDraws = s.lineDraws := rfl
@[simp] theorem startRelPart_time (s : State) : (startRelPart s).time = s.time := rfl
@[simp] theorem startRelPart_clock (s : State) : (startRelPart s).clock = s.clock := rfl
@[simp] theorem startRelPart_clockDraws (s : State) : (startRelPart s).clockDraws = s.clockDraws := rfl
@[simp] theorem startRelPart_trace (s : State) : (startRelPart s).trace = s.trace ++ [.mode .inputPullup] ++ [.delayUs 55] := rfl

@[simp] theorem failExchange_bound (s : State) : (failExchange s).bound = s.bound := rfl
@[simp] theorem failExchange_pin (s : State) : (failExchange s).pin = s.pin := rfl
@[simp] theorem failExchange_lastMs (s : State) : (failExchange s).lastMs = s.lastMs := rfl
@[simp] theorem failExchange_lastOk (s : State) : (failExchange s).lastOk = false := rfl
@[simp] theorem failExchange_frame (s : State) : (failExchange s).frame = s.frame := rfl
@[simp] theorem failExchange_dur (s : State) : (failExchange s).dur = s.dur := rfl
@[simp] theorem failExchange_cnt (s : State) : (failExchange s).cnt = s.cnt := rfl
@[simp] theorem failExchange_phase (s : State) : (failExchange s).phase = .respond := rfl
@[simp] theorem failExchange_idx (s : State) : (failExchange s).idx = s.idx := rfl
@[simp] theorem failExchange_crit (s : State) : (failExchange s).crit = s.crit := rfl
@[simp] theorem failExchange_mode (s : State) : (failExchange s).mode = s.mode := rfl
@[simp] theorem failExchange_drv (s : State) : (failExchange s).drv = s.drv := rfl
@[simp] theorem failExchange_rsp (s : State) : (failExchange s).rsp = s.rsp := rfl
@[simp] theorem failExchange_rspValid (s : State) : (failExchange s).rspValid = s.rspValid := rfl
@[simp] theorem failExchange_cur (s : State) : (failExchange s).cur = s.cur := rfl
@[simp] theorem failExchange_ret (s : State) : (failExchange s).ret = s.ret := rfl
@[simp] theorem failExchange_grain (s : State) : (failExchange s).grain = s.grain := rfl
@[simp] theorem failExchange_cfg (s : State) : (failExchange s).cfg = s.cfg := rfl
@[simp] theorem failExchange_rst (s : State) : (failExchange s).rst = s.rst := rfl
@[simp] theorem failExchange_cmds (s : State) : (failExchange s).cmds = s.cmds := rfl
@[simp] theorem failExchange_line (s : State) : (failExchange s).line = s.line := rfl
@[simp] theorem failExchange_lineDraws (s : State) : (failExchange s).lineDraws = s.lineDraws := rfl
@[simp] theorem failExchange_time (s : State) : (failExchange s).time = s.time := rfl
@[simp] theorem failExchange_clock (s : State) : (failExchange s).clock = s.clock := rfl
@[simp] theorem failExchange_clockDraws (s : State) : (failExchange s).clockDraws = s.clockDraws := rfl
@[simp] theorem failExchange_trace (s : State) : (failExchange s).trace = s.trace := rfl

@[simp] theorem State.hardReset_bound (s : State) : s.hardReset.bound = false := rfl
@[simp] theorem State.hardReset_pin (s : State) : s.hardReset.pin = 0 := rfl
@[simp] theorem State.hardReset_lastMs (s : State) : s.hardReset.lastMs = 0 := rfl
@[simp] theorem State.hardReset_lastOk (s : State) : s.hardReset.lastOk = false := rfl
@[simp] theorem State.hardReset_frame (s : State) : s.hardReset.frame = Vector.replicate 5 0 := rfl
@[simp] theorem State.hardReset_dur (s : State) : s.hardReset.dur = State.reset.dur := rfl
@[simp] theorem State.hardReset_cnt (s : State) : s.hardReset.cnt = State.reset.cnt := rfl
@[simp] theorem State.hardReset_phase (s : State) : s.hardReset.phase = .idle := rfl
@[simp] theorem State.hardReset_idx (s : State) : s.hardReset.idx = State.reset.idx := rfl
@[simp] theorem State.hardReset_crit (s : State) : s.hardReset.crit = false := rfl
@[simp] theorem State.hardReset_mode (s : State) : s.hardReset.mode = .unset := rfl
@[simp] theorem State.hardReset_drv (s : State) : s.hardReset.drv = State.reset.drv := rfl
@[simp] theorem State.hardReset_rsp (s : State) : s.hardReset.rsp = State.reset.rsp := rfl
@[simp] theorem State.hardReset_rspValid (s : State) : s.hardReset.rspValid = false := rfl
@[simp] theorem State.hardReset_cur (s : State) : s.hardReset.cur = State.reset.cur := rfl
@[simp] theorem State.hardReset_ret (s : State) : s.hardReset.ret = s.ret := rfl
@[simp] theorem State.hardReset_grain (s : State) : s.hardReset.grain = s.grain := rfl
@[simp] theorem State.hardReset_cfg (s : State) : s.hardReset.cfg = s.cfg := rfl
@[simp] theorem State.hardReset_rst (s : State) : s.hardReset.rst = false := rfl
@[simp] theorem State.hardReset_cmds (s : State) : s.hardReset.cmds = s.cmds := rfl
@[simp] theorem State.hardReset_line (s : State) : s.hardReset.line = s.line := rfl
@[simp] theorem State.hardReset_lineDraws (s : State) : s.hardReset.lineDraws = s.lineDraws := rfl
@[simp] theorem State.hardReset_time (s : State) : s.hardReset.time = s.time := rfl
@[simp] theorem State.hardReset_clock (s : State) : s.hardReset.clock = s.clock := rfl
@[simp] theorem State.hardReset_clockDraws (s : State) : s.hardReset.clockDraws = s.clockDraws := rfl
@[simp] theorem State.hardReset_trace (s : State) : s.hardReset.trace = s.trace := rfl

end Sys2Proof.Machine
end

