-- ==== Sys2Proof/Laws/Ops.lean ====
section
/-! SUPPORT. One lemma per shared operation that reads the environment: everything it can do. -/

namespace Sys2Proof.Machine

/-! ### `LineRead()` -/

@[simp] theorem State.lineRead_fst (s : State) : s.lineRead.1 = s.lineAnswer := by
  unfold State.lineRead; split <;> rfl

/-- The draws of the line made after one more `LineRead()`. -/
theorem State.lineRead_snd (s : State) :
    s.lineRead.2 = { s with line := s.line.tail, lineDraws := s.lineDraws + (1 - s.line.length),
                            trace := s.trace ++ [.read s.lineAnswer] } := by
  unfold State.lineRead
  split <;> rename_i h <;> simp [h, State.emit]

/-- `LineRead()` on a scripted answer. -/
theorem State.lineRead_cons (s : State) (v : Level) (rest : List Level) (h : s.line = v :: rest) :
    s.lineRead = (v, { s with line := rest, trace := s.trace ++ [.read v] }) := by
  unfold State.lineRead State.lineAnswer
  simp [h, State.emit]

/-! ### `NowMs()` -/

theorem State.nowMs_fst (s : State) : s.nowMs.1 = BitVec.ofNat 32 s.nextTime := by
  unfold State.nowMs; split <;> rfl

theorem State.nowMs_snd (s : State) :
    s.nowMs.2 = { s with time := s.nextTime, clock := s.clock.tail,
                         clockDraws := s.clockDraws + (1 - s.clock.length),
                         trace := s.trace ++ [.now (BitVec.ofNat 32 s.nextTime)] } := by
  unfold State.nowMs
  split <;> rename_i h <;> simp [h, State.emit]

theorem State.time_le_nextTime (s : State) : s.time ≤ s.nextTime := Nat.le_add_right _ _

/-! ### `EXPECT` -/

/-- `t` is `s` after polls of the line that returned `vs`: only the counter, the line's answers and the trace moved. -/
structure Polled (s t : State) (vs : List Level) : Prop where
  same  : t = { s with cnt := t.cnt, line := t.line, lineDraws := t.lineDraws, trace := t.trace }
  trace : t.trace = s.trace ++ vs.map Event.read

theorem Polled.refl (s : State) : Polled s s [] := ⟨rfl, by simp⟩

theorem Polled.trans {s t u : State} {vs ws : List Level} (h : Polled s t vs) (k : Polled t u ws) :
    Polled s u (vs ++ ws) := by
  refine ⟨?_, ?_⟩
  · rw [k.same, h.same]
  · rw [k.trace, h.trace]; simp

theorem Polled.cnt (s : State) (c : Word) : Polled s { s with cnt := c } [] := ⟨rfl, by simp⟩

theorem Polled.lineRead (s : State) : Polled s s.lineRead.2 [s.lineAnswer] := by
  rw [State.lineRead_snd]; exact ⟨rfl, rfl⟩

/-- Counting one and then `k` is counting `k + 1`. -/
theorem add_one_add_ofNat (x : Word) (k : Nat) : x + 1 + BitVec.ofNat 32 k = x + BitVec.ofNat 32 (k + 1) := by
  apply BitVec.eq_of_toNat_eq
  have one : (1 : Word).toNat = 1 := rfl
  simp only [BitVec.toNat_add, BitVec.toNat_ofNat, one]
  omega

/-- Everything the loop of `EXPECT` can do (R170, R171): with `left` iterations left it makes between 1 and `left` polls
(none when none is left) and returns the counter, below `cnt + left`, or the sentinel after exactly `left` polls at
`level`. -/
theorem expectLoop_cases (left : Nat) (level : Level) (s : State) :
    ∃ vs, Polled s (expectLoop left level s).2 vs ∧ vs.length ≤ left ∧
      ((∃ k < left, (expectLoop left level s).1 = s.cnt + BitVec.ofNat 32 k ∧ ∃ v, v ≠ level ∧ vs = List.replicate k level ++ [v]) ∨
       ((expectLoop left level s).1 = Config.timeout ∧ vs = List.replicate left level)) := by
  induction left generalizing s with
  | zero => exact ⟨[], Polled.refl s, by simp, .inr ⟨rfl, rfl⟩⟩
  | succ left ih =>
    by_cases h : s.lineAnswer = level
    · have hl : expectLoop (left + 1) level s
          = expectLoop left level { s.lineRead.2 with cnt := s.lineRead.2.cnt + 1 } := by
        simp [expectLoop, h]
      obtain ⟨vs, hp, hlen, hc⟩ := ih { s.lineRead.2 with cnt := s.lineRead.2.cnt + 1 }
      rw [hl]
      refine ⟨s.lineAnswer :: vs, ?_, by simpa using hlen, ?_⟩
      · exact ((Polled.lineRead s).trans (Polled.cnt _ _)).trans hp
      · rcases hc with ⟨k, hk, hr, v, hv, hvs⟩ | ⟨hr, hvs⟩
        · refine .inl ⟨k + 1, by omega, ?_, v, hv, ?_⟩
          · rw [hr, State.lineRead_snd]
            exact add_one_add_ofNat s.cnt k
          · simp [hvs, h, List.replicate_succ]
        · exact .inr ⟨hr, by simp [hvs, h, List.replicate_succ]⟩
    · have hl : expectLoop (left + 1) level s = (s.lineRead.2.cnt, s.lineRead.2) := by
        simp [expectLoop, h]
      rw [hl]
      refine ⟨[s.lineAnswer], Polled.lineRead s, by simp, .inl ⟨0, by omega, ?_, s.lineAnswer, h, by simp⟩⟩
      rw [State.lineRead_snd]
      show s.cnt = s.cnt + BitVec.ofNat 32 0
      simp

theorem Config.maxc_pos (c : Config) : 0 < c.maxc := Nat.succ_pos _

theorem Config.maxc_lt (c : Config) : c.maxc < 2 ^ 32 := by
  have := c.maxcLessOne.isLt
  unfold Config.maxc; omega

/-- Everything `EXPECT` can do (R170 to R172). -/
theorem expect_cases (level : Level) (s : State) :
    ∃ vs, Polled s (expect level s).2 vs ∧
      ((∃ k < s.cfg.maxc, (expect level s).1 = BitVec.ofNat 32 k ∧ ∃ v, v ≠ level ∧ vs = List.replicate k level ++ [v]) ∨
       ((expect level s).1 = Config.timeout ∧ vs = List.replicate s.cfg.maxc level)) := by
  obtain ⟨vs, hp, -, hc⟩ := expectLoop_cases s.cfg.maxc level { s with cnt := 0 }
  refine ⟨vs, (Polled.cnt s 0).trans hp, ?_⟩
  rcases hc with ⟨k, hk, hr, hv⟩ | hr
  · exact .inl ⟨k, hk, by simpa [expect] using hr, hv⟩
  · exact .inr hr

/-- A real count is never the sentinel (R88). -/
theorem ofNat_ne_timeout {k : Nat} {c : Config} (h : k < c.maxc) : BitVec.ofNat 32 k ≠ Config.timeout := by
  intro e
  have h1 := congrArg BitVec.toNat e
  have h2 := c.maxcLessOne.isLt
  unfold Config.maxc at h
  simp [Config.timeout] at h1
  omega

/-- `EXPECT` moves only the counter, the line's answers and the trace (R170, R174). -/
theorem expect_polled (level : Level) (s : State) : ∃ vs, Polled s (expect level s).2 vs := by
  obtain ⟨vs, hp, -⟩ := expect_cases level s
  exact ⟨vs, hp⟩

theorem expect_same (level : Level) (s : State) :
    (expect level s).2 = { s with cnt := (expect level s).2.cnt, line := (expect level s).2.line,
                                  lineDraws := (expect level s).2.lineDraws, trace := (expect level s).2.trace } := by
  obtain ⟨vs, hp, -⟩ := expect_cases level s
  exact hp.same

/-- `EXPECT` on a scripted pulse of `n` < `left` answers at `level` ended by another level (R171, R173). -/
theorem expectLoop_run (left n : Nat) (level v : Level) (rest : List Level) (s : State) (hn : n < left) (hv : v ≠ level)
    (h : s.line = List.replicate n level ++ v :: rest) :
    expectLoop left level s
      = (s.cnt + BitVec.ofNat 32 n,
         { s with cnt := s.cnt + BitVec.ofNat 32 n, line := rest,
                  trace := s.trace ++ (List.replicate n level ++ [v]).map Event.read }) := by
  induction n generalizing left s with
  | zero =>
    obtain ⟨left, rfl⟩ := Nat.exists_eq_succ_of_ne_zero (by omega : left ≠ 0)
    rw [expectLoop, State.lineRead_cons s v rest (by simpa using h)]
    simp [hv]
  | succ n ih =>
    obtain ⟨left, rfl⟩ := Nat.exists_eq_succ_of_ne_zero (by omega : left ≠ 0)
    rw [expectLoop, State.lineRead_cons s level (List.replicate n level ++ v :: rest) (by simpa [List.replicate_succ] using h)]
    simp only [ne_eq, not_true_eq_false, if_false]
    rw [ih _ _ (by omega) rfl]
    rw [add_one_add_ofNat]
    simp [List.replicate_succ]

theorem expect_run (n : Nat) (level v : Level) (rest : List Level) (s : State) (hn : n < s.cfg.maxc) (hv : v ≠ level)
    (h : s.line = List.replicate n level ++ v :: rest) :
    expect level s
      = (BitVec.ofNat 32 n,
         { s with cnt := BitVec.ofNat 32 n, line := rest,
                  trace := s.trace ++ (List.replicate n level ++ [v]).map Event.read }) := by
  unfold expect
  rw [expectLoop_run s.cfg.maxc n level v rest { s with cnt := 0 } hn hv h]
  simp

end Sys2Proof.Machine
end

