-- ==== Sys2Proof/Laws/Line.lean ====
section
/-! SUPPORT. `EXPECT` over an arbitrary line, scripted or free: what it returns and how many answers it consumes. -/

namespace Sys2Proof.Machine

open Sys2Proof.Safety

/-- `NowMs()` (R55). -/
theorem State.nowMs_eq (s : State) : s.nowMs = (nowOf s, sampled s) := by
  rw [show sampled s = s.nowMs.2 from (State.nowMs_snd s).symm, nowOf, ← State.nowMs_fst]

/-- The gate takes the cached path exactly below 2000 ms (R117). -/
theorem gate_cached_iff (t l : Word) : gate t l = .cached ↔ (t - l).toNat < 2000 := by
  unfold gate elapsed
  have : Config.minIntervalMs.toNat = 2000 := rfl
  rw [this]
  split <;> simp_all

theorem gate_fresh_iff (t l : Word) : gate t l = .fresh ↔ ¬ (t - l).toNat < 2000 := by
  rw [← gate_cached_iff]
  cases gate t l <;> simp

/-- The next answer is the one `LineRead()` gives. -/
theorem upcoming_zero (s : State) : upcoming s 0 = s.lineAnswer := by
  unfold upcoming State.lineAnswer
  cases s.line <;> simp

/-- One `LineRead()` consumes one answer. -/
theorem lineRead_eq_consumed (s : State) : s.lineRead.2 = consumed s 1 [s.lineAnswer] := by
  rw [State.lineRead_snd]
  unfold consumed
  cases s.line <;> simp

/-- What comes after `n` answers were consumed. -/
theorem upcoming_consumed (s : State) (n k : Nat) (vs : List Level) :
    upcoming (consumed s n vs) k = upcoming s (n + k) := by
  unfold upcoming consumed
  simp only [List.getElem?_drop, List.length_drop]
  cases h : s.line[n + k]? with
  | some v => simp
  | none =>
    have := List.getElem?_eq_none_iff.mp h
    simp only []
    congr 1
    omega

theorem upcoming_cnt (s : State) (c : Word) (k : Nat) : upcoming { s with cnt := c } k = upcoming s k := rfl

theorem consumed_consumed (s : State) (n m : Nat) (vs ws : List Level) :
    consumed (consumed s n vs) m ws = consumed s (n + m) (vs ++ ws) := by
  have e : s.lineDraws + (n - s.line.length) + (m - (s.line.length - n)) = s.lineDraws + (n + m - s.line.length) := by
    omega
  simp [consumed, e, List.drop_drop]

theorem consumed_zero (s : State) : consumed s 0 [] = s := by simp [consumed]

/-- The loop of `EXPECT` on a pulse of `n` answers at `level` that ends before the iterations do (R171). -/
theorem expectLoop_measures (left n : Nat) (level : Level) (s : State) (hn : n < left)
    (hrun : ∀ k < n, upcoming s k = level) (hend : upcoming s n ≠ level) :
    expectLoop left level s
      = (s.cnt + BitVec.ofNat 32 n,
         { consumed s (n + 1) (List.replicate n level ++ [upcoming s n]) with cnt := s.cnt + BitVec.ofNat 32 n }) := by
  induction n generalizing left s with
  | zero =>
    obtain ⟨left, rfl⟩ := Nat.exists_eq_succ_of_ne_zero (by omega : left ≠ 0)
    rw [upcoming_zero] at hend ⊢
    rw [expectLoop]
    simp only [State.lineRead_fst, lineRead_eq_consumed]
    simp [hend, consumed]
  | succ n ih =>
    obtain ⟨left, rfl⟩ := Nat.exists_eq_succ_of_ne_zero (by omega : left ≠ 0)
    have h0 : s.lineAnswer = level := by rw [← upcoming_zero]; exact hrun 0 (by omega)
    rw [expectLoop]
    simp only [State.lineRead_fst, lineRead_eq_consumed, h0, ne_eq, not_true_eq_false, if_false]
    have up : ∀ k, upcoming { consumed s 1 [level] with cnt := (consumed s 1 [level]).cnt + 1 } k = upcoming s (k + 1) := by
      intro k
      rw [upcoming_cnt, upcoming_consumed, Nat.add_comm]
    rw [ih _ _ (by omega) (fun k hk => by rw [up]; exact hrun _ (by omega)) (by rw [up]; exact hend), up]
    have hc : (consumed s 1 [level]).cnt = s.cnt := rfl
    simp only [hc, add_one_add_ofNat]
    have := consumed_consumed s 1 (n + 1) [level] (List.replicate n level ++ [upcoming s (n + 1)])
    rw [show 1 + (n + 1) = n + 1 + 1 by omega] at this
    simp only [List.replicate_succ, List.cons_append, List.nil_append] at this ⊢
    rw [← this]
    rfl

/-- The loop of `EXPECT` on a line that stays at `level` (R171, R172). -/
theorem expectLoop_timesOut (left : Nat) (level : Level) (s : State) (hrun : ∀ k < left, upcoming s k = level) :
    expectLoop left level s
      = (Config.timeout,
         { consumed s left (List.replicate left level) with cnt := s.cnt + BitVec.ofNat 32 left }) := by
  induction left generalizing s with
  | zero => simp [expectLoop, consumed]
  | succ n ih =>
    have h0 : s.lineAnswer = level := by rw [← upcoming_zero]; exact hrun 0 (by omega)
    rw [expectLoop]
    simp only [State.lineRead_fst, lineRead_eq_consumed, h0, ne_eq, not_true_eq_false, if_false]
    have up : ∀ k, upcoming { consumed s 1 [level] with cnt := (consumed s 1 [level]).cnt + 1 } k = upcoming s (k + 1) := by
      intro k
      rw [upcoming_cnt, upcoming_consumed, Nat.add_comm]
    rw [ih _ (fun k hk => by rw [up]; exact hrun _ (by omega))]
    have hc : (consumed s 1 [level]).cnt = s.cnt := rfl
    simp only [hc, add_one_add_ofNat]
    have := consumed_consumed s 1 n [level] (List.replicate n level)
    rw [Nat.add_comm 1 n] at this
    simp only [List.replicate_succ, List.cons_append, List.nil_append] at this ⊢
    rw [← this]
    rfl

/-- `EXPECT` on a pulse shorter than the bound (R171). -/
theorem expect_measures (n : Nat) (level : Level) (s : State) (hn : n < s.cfg.maxc)
    (hrun : ∀ k < n, upcoming s k = level) (hend : upcoming s n ≠ level) :
    expect level s
      = (BitVec.ofNat 32 n,
         { consumed s (n + 1) (List.replicate n level ++ [upcoming s n]) with cnt := BitVec.ofNat 32 n }) := by
  unfold expect
  rw [expectLoop_measures s.cfg.maxc n level { s with cnt := 0 } hn hrun hend]
  simp [consumed, upcoming]

/-- `EXPECT` on a pulse that reaches the bound (R171, R172). -/
theorem expect_timesOut (level : Level) (s : State) (hrun : ∀ k < s.cfg.maxc, upcoming s k = level) :
    expect level s
      = (Config.timeout,
         { consumed s s.cfg.maxc (List.replicate s.cfg.maxc level) with cnt := BitVec.ofNat 32 s.cfg.maxc }) := by
  unfold expect
  rw [expectLoop_timesOut s.cfg.maxc level { s with cnt := 0 } hrun]
  simp [consumed]

end Sys2Proof.Machine
end

