-- ==== Sys2Proof/Laws/Exchange.lean ====
section
/-! SUPPORT. One lemma per part of the exchange: everything it can do. -/

namespace Sys2Proof.Machine

open Sys2Proof.Safety

/-! ### Polls, with the number of answers bounded -/

theorem expect_polls (level : Level) (s : State) :
    ∃ vs, Polled s (expect level s).2 vs ∧ 1 ≤ vs.length ∧ vs.length ≤ s.cfg.maxc := by
  obtain ⟨vs, hp, hc⟩ := expect_cases level s
  refine ⟨vs, hp, ?_⟩
  have hpos := Config.maxc_pos s.cfg
  rcases hc with ⟨k, hk, -, v, -, rfl⟩ | ⟨-, rfl⟩
  · simp; omega
  · simp; omega

theorem Polled.cfg {s t : State} {vs : List Level} (h : Polled s t vs) : t.cfg = s.cfg := by rw [h.same]
theorem Polled.frame {s t : State} {vs : List Level} (h : Polled s t vs) : t.frame = s.frame := by rw [h.same]
theorem Polled.dur {s t : State} {vs : List Level} (h : Polled s t vs) : t.dur = s.dur := by rw [h.same]

@[simp] theorem expect_cfg (level : Level) (s : State) : (expect level s).2.cfg = s.cfg := by rw [expect_same]
@[simp] theorem expect_dur (level : Level) (s : State) : (expect level s).2.dur = s.dur := by rw [expect_same]
@[simp] theorem expect_frame (level : Level) (s : State) : (expect level s).2.frame = s.frame := by rw [expect_same]

/-- The loop of `EXPECT` sees only the counter, the line's answers and the trace: from two states that agree on them it
returns the same value and leaves the same in them. -/
theorem expectLoop_congr (left : Nat) (level : Level) (s u : State) (hc : u.cnt = s.cnt) (hl : u.line = s.line)
    (hd : u.lineDraws = s.lineDraws) (ht : u.trace = s.trace) :
    (expectLoop left level u).1 = (expectLoop left level s).1 ∧
    (expectLoop left level u).2.cnt = (expectLoop left level s).2.cnt ∧
    (expectLoop left level u).2.line = (expectLoop left level s).2.line ∧
    (expectLoop left level u).2.lineDraws = (expectLoop left level s).2.lineDraws ∧
    (expectLoop left level u).2.trace = (expectLoop left level s).2.trace := by
  induction left generalizing s u with
  | zero => exact ⟨rfl, hc, hl, hd, ht⟩
  | succ n ih =>
    have ha : u.lineAnswer = s.lineAnswer := by unfold State.lineAnswer; rw [hl, hd]
    simp only [expectLoop, State.lineRead_fst, ha]
    split
    · simp [State.lineRead_snd, hc, hl, hd, ht, ha]
    · apply ih <;> simp [State.lineRead_snd, hc, hl, hd, ht, ha]

/-- `EXPECT` sees only the bound, the line's answers and the trace (R170, R174). -/
theorem expect_congr (level : Level) (s u : State) (hg : u.cfg = s.cfg) (hl : u.line = s.line)
    (hd : u.lineDraws = s.lineDraws) (ht : u.trace = s.trace) :
    (expect level u).1 = (expect level s).1 ∧
    (expect level u).2 = { u with cnt := (expect level s).2.cnt, line := (expect level s).2.line,
                                  lineDraws := (expect level s).2.lineDraws, trace := (expect level s).2.trace } := by
  obtain ⟨h1, h2, h3, h4, h5⟩ :=
    expectLoop_congr s.cfg.maxc level { s with cnt := 0 } { u with cnt := 0 } rfl hl hd ht
  have e : expect level u = expectLoop s.cfg.maxc level { u with cnt := 0 } := by rw [expect, hg]
  rw [← e] at h1 h2 h3 h4 h5
  rw [show expectLoop s.cfg.maxc level { s with cnt := 0 } = expect level s from rfl] at h1 h2 h3 h4 h5
  exact ⟨h1, by rw [← h2, ← h3, ← h4, ← h5]; exact expect_same level u⟩

/-! ### Step b -/

/-- What `START` does (R142): seven events, and the pin back as an input with pull-up. -/
theorem start_eq (s : State) :
    start s = { s with mode := .inputPullup, drv := .low, trace := s.trace ++ startEvents s.cfg } := by
  simp [start, startPrePart, startLowPart, startRelPart, startEvents, State.pinMode, State.lineWrite, State.delayMs,
    State.delayUs, State.emit, Config.startLowMs, Config.settleUs]

/-! ### Step d -/

/-- What `ACK` does (R144): at most two `EXPECT`s' worth of polls, both when it passes; nothing else. -/
theorem ack_polls (s : State) :
    ∃ vs, Polled s (ack s).2 vs ∧ 1 ≤ vs.length ∧ vs.length ≤ 2 * s.cfg.maxc ∧ ((ack s).1 = true → 2 ≤ vs.length) := by
  obtain ⟨vs, hp, h1, h2⟩ := expect_polls .low s
  unfold ack
  by_cases h0 : (expect .low s).1 = Config.timeout
  · simp only [h0, if_true]
    exact ⟨vs, hp, h1, by omega, by simp⟩
  · obtain ⟨ws, hq, k1, k2⟩ := expect_polls .high (expect .low s).2
    have hs := hp.trans hq
    rw [expect_cfg] at k2
    simp only [h0, if_false]
    refine ⟨vs ++ ws, ?_, by simp; omega, by simp; omega, fun _ => by simp; omega⟩
    split <;> exact hs

/-- A sequence of answers either stays at `l` for `n` answers or leaves it at a first one before. -/
theorem first_break (p : Nat → Level) (l : Level) (n : Nat) :
    (∃ k < n, (∀ j < k, p j = l) ∧ p k ≠ l) ∨ ∀ k < n, p k = l := by
  induction n with
  | zero => exact .inr (by simp)
  | succ n ih =>
    rcases ih with ⟨k, hk, h⟩ | h
    · exact .inl ⟨k, by omega, h⟩
    · by_cases hn : p n = l
      · refine .inr fun k hk => ?_
        by_cases e : k = n
        · rw [e]; exact hn
        · exact h k (by omega)
      · exact .inl ⟨n, by omega, h, hn⟩

theorem Level.ne_low {l : Level} : l ≠ .low ↔ l = .high := by cases l <;> simp
theorem Level.ne_high {l : Level} : l ≠ .high ↔ l = .low := by cases l <;> simp

/-- `ACK` on two pulses shorter than the bound (R144). -/
theorem ack_passed (s : State) (a0 a1 : Nat) (h0 : a0 < s.cfg.maxc) (h1 : a1 < s.cfg.maxc)
    (r0 : ∀ k < a0, upcoming s k = .low) (e0 : upcoming s a0 = .high)
    (r1 : ∀ k < a1, upcoming s (a0 + 1 + k) = .high) (e1 : upcoming s (a0 + 1 + a1) = .low) :
    ack s = (true, { consumed s (a0 + 1 + (a1 + 1)) ((List.replicate a0 .low ++ [.high]) ++ (List.replicate a1 .high ++ [.low]))
      with cnt := BitVec.ofNat 32 a1 }) := by
  unfold ack
  rw [expect_measures a0 .low s h0 r0 (by simp [e0])]
  simp only [ofNat_ne_timeout h0, if_false]
  set u : State := { consumed s (a0 + 1) (List.replicate a0 .low ++ [upcoming s a0]) with cnt := BitVec.ofNat 32 a0 } with hu
  have up : ∀ k, upcoming u k = upcoming s (a0 + 1 + k) := by
    intro k
    rw [hu, upcoming_cnt, upcoming_consumed]
  have h1' : a1 < u.cfg.maxc := h1
  rw [expect_measures a1 .high u h1' (fun k hk => by rw [up]; exact r1 k hk) (by rw [up, e1]; simp)]
  simp only [ofNat_ne_timeout h1', if_false]
  rw [up, e1]
  have := consumed_consumed s (a0 + 1) (a1 + 1) (List.replicate a0 .low ++ [upcoming s a0]) (List.replicate a1 .high ++ [.low])
  rw [e0] at this
  rw [← this, hu, e0]
  rfl

/-- Everything `ACK` can do (R144, R212): it passes on two short pulses, or times out on the LOW or on the HIGH one. -/
theorem ack_cases (s : State) :
    (ackPasses s ∧ (ack s).1 = true) ∨
    ((∀ k < s.cfg.maxc, upcoming s k = .low) ∧ ack s = (false, { consumed s s.cfg.maxc (List.replicate s.cfg.maxc .low) with cnt := BitVec.ofNat 32 s.cfg.maxc })) ∨
    (∃ a0 < s.cfg.maxc, (∀ k < a0, upcoming s k = .low) ∧ upcoming s a0 = .high ∧ (∀ k < s.cfg.maxc, upcoming s (a0 + 1 + k) = .high) ∧
      ack s = (false, { consumed s (a0 + 1 + s.cfg.maxc) ((List.replicate a0 .low ++ [.high]) ++ List.replicate s.cfg.maxc .high) with cnt := BitVec.ofNat 32 s.cfg.maxc })) := by
  rcases first_break (upcoming s) .low s.cfg.maxc with ⟨a0, h0, r0, e0⟩ | hlow
  · have e0' := Level.ne_low.1 e0
    rcases first_break (fun k => upcoming s (a0 + 1 + k)) .high s.cfg.maxc with ⟨a1, h1, r1, e1⟩ | hhigh
    · have e1' := Level.ne_high.1 e1
      exact .inl ⟨⟨a0, a1, h0, h1, r0, e0', r1, e1'⟩, by rw [ack_passed s a0 a1 h0 h1 r0 e0' r1 e1']⟩
    · refine .inr (.inr ⟨a0, h0, r0, e0', hhigh, ?_⟩)
      unfold ack
      rw [expect_measures a0 .low s h0 r0 e0]
      simp only [ofNat_ne_timeout h0, if_false]
      set u : State := { consumed s (a0 + 1) (List.replicate a0 .low ++ [upcoming s a0]) with cnt := BitVec.ofNat 32 a0 } with hu
      have up : ∀ k, upcoming u k = upcoming s (a0 + 1 + k) := by
        intro k
        rw [hu, upcoming_cnt, upcoming_consumed]
      have hc : u.cfg.maxc = s.cfg.maxc := rfl
      rw [expect_timesOut .high u (fun k hk => by rw [up]; exact hhigh k hk)]
      simp only [if_true]
      rw [hc]
      have := consumed_consumed s (a0 + 1) s.cfg.maxc (List.replicate a0 .low ++ [upcoming s a0]) (List.replicate s.cfg.maxc .high)
      rw [e0'] at this
      rw [← this, hu, e0']
      rfl
  · refine .inr (.inl ⟨hlow, ?_⟩)
    unfold ack
    rw [expect_timesOut .low s hlow]
    simp

/-- `ACK` succeeds exactly when two short pulses stand at the head of the line's answers (R144). -/
theorem ackPasses_iff (s : State) : ackPasses s ↔ (ack s).1 = true := by
  constructor
  · rintro ⟨a0, a1, h0, h1, r0, e0, r1, e1⟩
    rw [ack_passed s a0 a1 h0 h1 r0 e0 r1 e1]
  · intro h
    rcases ack_cases s with ⟨h', -⟩ | ⟨-, h'⟩ | ⟨a0, -, -, -, -, h'⟩
    · exact h'
    · rw [h'] at h; cases h
    · rw [h'] at h; cases h

/-! ### Step e -/

/-- `t` is `s` after measurements that polled `vs`: `DUR`, `CNT`, `IDX` and what polls move. -/
structure Measured (s t : State) (vs : List Level) : Prop where
  same  : t = { s with dur := t.dur, cnt := t.cnt, idx := t.idx, line := t.line, lineDraws := t.lineDraws, trace := t.trace }
  trace : t.trace = s.trace ++ vs.map Event.read

theorem Measured.refl (s : State) : Measured s s [] := ⟨rfl, by simp⟩

theorem Measured.trans {s t u : State} {vs ws : List Level} (h : Measured s t vs) (k : Measured t u ws) :
    Measured s u (vs ++ ws) := by
  refine ⟨?_, ?_⟩
  · rw [k.same, h.same]
  · rw [k.trace, h.trace]; simp

theorem Polled.measured {s t : State} {vs : List Level} (h : Polled s t vs) : Measured s t vs :=
  ⟨by rw [h.same], h.trace⟩

theorem Measured.setDur {s t : State} {vs : List Level} (h : Measured s t vs) (d : Vector Word 80) :
    Measured s { t with dur := d } vs :=
  ⟨by rw [h.same], h.trace⟩

theorem Measured.setIdx {s t : State} {vs : List Level} (h : Measured s t vs) (i : Fin 40) :
    Measured s { t with idx := i } vs :=
  ⟨by rw [h.same], h.trace⟩

theorem Measured.cfg {s t : State} {vs : List Level} (h : Measured s t vs) : t.cfg = s.cfg := by rw [h.same]
theorem Measured.frame {s t : State} {vs : List Level} (h : Measured s t vs) : t.frame = s.frame := by rw [h.same]

theorem captureLow_measured (s : State) (i : Fin 40) :
    ∃ vs, Measured s (captureLow s i) vs ∧ 1 ≤ vs.length ∧ vs.length ≤ s.cfg.maxc := by
  obtain ⟨vs, hp, h⟩ := expect_polls .low s
  exact ⟨vs, hp.measured.setDur _, h⟩

theorem captureHigh_measured (s : State) (i : Fin 40) :
    ∃ vs, Measured s (captureHigh s i) vs ∧ 1 ≤ vs.length ∧ vs.length ≤ s.cfg.maxc := by
  obtain ⟨vs, hp, h⟩ := expect_polls .high s
  exact ⟨vs, hp.measured.setDur _, h⟩

theorem captureBit_measured (s : State) (i : Fin 40) :
    ∃ vs, Measured s (captureBit s i) vs ∧ 2 ≤ vs.length ∧ vs.length ≤ 2 * s.cfg.maxc := by
  obtain ⟨vs, hp, h1, h2⟩ := captureLow_measured s i
  obtain ⟨ws, hq, k1, k2⟩ := captureHigh_measured (captureLow s i) i
  rw [hp.cfg] at k2
  exact ⟨vs ++ ws, hp.trans hq, by simp; omega, by simp; omega⟩

theorem captureFold_measured (is : List (Fin 40)) (s : State) :
    ∃ vs, Measured s (is.foldl captureBit s) vs ∧ 2 * is.length ≤ vs.length ∧ vs.length ≤ 2 * is.length * s.cfg.maxc := by
  induction is generalizing s with
  | nil => exact ⟨[], Measured.refl s, by simp, by simp⟩
  | cons i is ih =>
    obtain ⟨vs, hp, h1, h2⟩ := captureBit_measured s i
    obtain ⟨ws, hq, k1, k2⟩ := ih (captureBit s i)
    rw [hp.cfg] at k2
    refine ⟨vs ++ ws, hp.trans hq, by simp; omega, ?_⟩
    simp only [List.length_append, List.length_cons]
    calc vs.length + ws.length ≤ 2 * s.cfg.maxc + 2 * is.length * s.cfg.maxc := by omega
      _ = 2 * (is.length + 1) * s.cfg.maxc := by ring

theorem bitIndices_length : bitIndices.length = 40 := by simp [bitIndices]

/-- What `CAPTURE` does (R145, R151): 80 `EXPECT`s, between 80 and 80 × `MAXC` polls. -/
theorem capture_measured (s : State) :
    ∃ vs, Measured s (capture s) vs ∧ 80 ≤ vs.length ∧ vs.length ≤ 80 * s.cfg.maxc := by
  obtain ⟨vs, hp, h1, h2⟩ := captureFold_measured bitIndices s
  rw [bitIndices_length] at h1 h2
  exact ⟨vs, hp.setIdx _, by omega, by omega⟩

@[simp] theorem capture_idx (s : State) : (capture s).idx = 0 := rfl

/-! ### Steps g and h -/

theorem decodeStep_fail (s : State) (h : anyTimeout s.dur = true) : decodeStep s = (false, s) := by
  simp [decodeStep, h]

theorem decodeStep_ok (s : State) (h : anyTimeout s.dur = false) :
    decodeStep s = (true, { s with frame := decodeFrame s.dur s.frame, idx := 39 }) := by
  simp [decodeStep, h]

/-! ### The whole exchange -/

/-- The state in which `ACK` begins: `FRAME` zero, `START` done, the critical section open (R140 to R143). -/
def opened (s : State) : State :=
  { s with frame := Vector.replicate 5 0, mode := .inputPullup, drv := .low, crit := true,
           trace := s.trace ++ startEvents s.cfg ++ [.critEnter] }

theorem xfer_eq (s : State) : xfer s = xferRest (opened s) := by
  unfold xfer
  rw [start_eq]
  rfl

/-- Handshake timeout (R212). -/
theorem xfer_ackFail (s : State) (h : (ack (opened s)).1 = false) : xfer s = (false, (ack (opened s)).2.critExit) := by
  rw [xfer_eq]; simp [xferRest, h]

/-- Bit timeout (R213). -/
theorem xfer_bitFail (s : State) (h : (ack (opened s)).1 = true)
    (k : anyTimeout (capture (ack (opened s)).2).dur = true) :
    xfer s = (false, (capture (ack (opened s)).2).critExit) := by
  rw [xfer_eq]; simp [xferRest, h, decodeStep, k]

/-- All forty bits decoded; the result is the checksum's (R149, R214). -/
theorem xfer_decoded (s : State) (h : (ack (opened s)).1 = true)
    (k : anyTimeout (capture (ack (opened s)).2).dur = false) :
    xfer s = (checksumOk (decodeFrame (capture (ack (opened s)).2).dur (Vector.replicate 5 0)),
      { (capture (ack (opened s)).2).critExit with
        frame := decodeFrame (capture (ack (opened s)).2).dur (Vector.replicate 5 0), idx := 39 }) := by
  obtain ⟨vs, hp, -⟩ := ack_polls (opened s)
  obtain ⟨ws, hq, -⟩ := capture_measured (ack (opened s)).2
  have hf : (capture (ack (opened s)).2).frame = Vector.replicate 5 0 := by
    rw [hq.frame, hp.frame]; rfl
  rw [xfer_eq]; simp [xferRest, h, decodeStep, k, hf]

/-- Everything `XFER` can do to the state (R140, R150 to R152): it polls `vs` inside one critical section, closes it,
releases the line, and succeeds only with a frame whose checksum holds. -/
theorem xfer_cases (s : State) :
    ∃ vs : List Level,
      (xfer s).2 = { s with frame := (xfer s).2.frame, dur := (xfer s).2.dur, cnt := (xfer s).2.cnt, idx := (xfer s).2.idx,
                            crit := false, mode := .inputPullup, drv := .low, line := (xfer s).2.line,
                            lineDraws := (xfer s).2.lineDraws, trace := (xfer s).2.trace } ∧
      (xfer s).2.trace = s.trace ++ startEvents s.cfg ++ [.critEnter] ++ vs.map Event.read ++ [.critExit] ∧
      1 ≤ vs.length ∧ vs.length ≤ 82 * s.cfg.maxc ∧
      (¬ ackPasses s → vs.length ≤ 2 * s.cfg.maxc) ∧ (ackPasses s → 82 ≤ vs.length) ∧
      ((xfer s).1 = true → checksumOk (xfer s).2.frame = true) := by
  obtain ⟨vs, hp, h1, h2, h3⟩ := ack_polls (opened s)
  obtain ⟨ws, hq, k1, k2⟩ := capture_measured (ack (opened s)).2
  rw [hp.cfg] at k2
  have ho : (opened s).cfg = s.cfg := rfl
  rw [ho] at h2 k2
  have hpass : ackPasses s ↔ (ack (opened s)).1 = true := ackPasses_iff (opened s)
  cases ha : (ack (opened s)).1 with
  | false =>
    have hn : ¬ ackPasses s := by rw [hpass, ha]; simp
    rw [xfer_ackFail s ha]
    refine ⟨vs, ?_, ?_, h1, by omega, fun _ => h2, fun h => absurd h hn, by simp⟩
    · simp only [State.critExit, State.emit]
      rw [hp.same]
      simp [opened]
    · rw [State.critExit_trace, hp.trace]; rfl
  | true =>
    have hy : ackPasses s := hpass.2 ha
    have h3 := h3 ha
    have hm := hp.measured.trans hq
    have ht := hm.trace
    have hs := hm.same
    cases ka : anyTimeout (capture (ack (opened s)).2).dur with
    | true =>
      rw [xfer_bitFail s ha ka]
      refine ⟨vs ++ ws, ?_, ?_, by simp; omega, by simp; omega, fun h => absurd hy h, fun _ => by simp; omega, by simp⟩
      · simp only [State.critExit, State.emit]
        rw [hs]
        simp [opened]
      · rw [State.critExit_trace, ht]; rfl
    | false =>
      rw [xfer_decoded s ha ka]
      refine ⟨vs ++ ws, ?_, ?_, by simp; omega, by simp; omega, fun h => absurd hy h, fun _ => by simp; omega, by simp⟩
      · simp only [State.critExit, State.emit]
        rw [hs]
        simp [opened]
      · show (capture (ack (opened s)).2).critExit.trace = _
        rw [State.critExit_trace, ht]; rfl

end Sys2Proof.Machine
end

