-- ==== Sys2Proof/Laws/Fields.lean ====
section
/-! SUPPORT. What the operations that read the environment leave in each field. -/

namespace Sys2Proof.Machine

open Sys2Proof.Safety

/-- `NowMs()` (R55). -/
@[simp] theorem State.nowMs_val (s : State) : s.nowMs.1 = nowOf s := by rw [State.nowMs_eq]

@[simp] theorem State.nowMs_snd_bound (s : State) : s.nowMs.2.bound = s.bound := by rw [State.nowMs_eq]; rfl
@[simp] theorem State.nowMs_snd_pin (s : State) : s.nowMs.2.pin = s.pin := by rw [State.nowMs_eq]; rfl
@[simp] theorem State.nowMs_snd_lastMs (s : State) : s.nowMs.2.lastMs = s.lastMs := by rw [State.nowMs_eq]; rfl
@[simp] theorem State.nowMs_snd_lastOk (s : State) : s.nowMs.2.lastOk = s.lastOk := by rw [State.nowMs_eq]; rfl
@[simp] theorem State.nowMs_snd_frame (s : State) : s.nowMs.2.frame = s.frame := by rw [State.nowMs_eq]; rfl
@[simp] theorem State.nowMs_snd_dur (s : State) : s.nowMs.2.dur = s.dur := by rw [State.nowMs_eq]; rfl
@[simp] theorem State.nowMs_snd_cnt (s : State) : s.nowMs.2.cnt = s.cnt := by rw [State.nowMs_eq]; rfl
@[simp] theorem State.nowMs_snd_phase (s : State) : s.nowMs.2.phase = s.phase := by rw [State.nowMs_eq]; rfl
@[simp] theorem State.nowMs_snd_idx (s : State) : s.nowMs.2.idx = s.idx := by rw [State.nowMs_eq]; rfl
@[simp] theorem State.nowMs_snd_crit (s : State) : s.nowMs.2.crit = s.crit := by rw [State.nowMs_eq]; rfl
@[simp] theorem State.nowMs_snd_mode (s : State) : s.nowMs.2.mode = s.mode := by rw [State.nowMs_eq]; rfl
@[simp] theorem State.nowMs_snd_drv (s : State) : s.nowMs.2.drv = s.drv := by rw [State.nowMs_eq]; rfl
@[simp] theorem State.nowMs_snd_rsp (s : State) : s.nowMs.2.rsp = s.rsp := by rw [State.nowMs_eq]; rfl
@[simp] theorem State.nowMs_snd_rspValid (s : State) : s.nowMs.2.rspValid = s.rspValid := by rw [State.nowMs_eq]; rfl
@[simp] theorem State.nowMs_snd_cur (s : State) : s.nowMs.2.cur = s.cur := by rw [State.nowMs_eq]; rfl
@[simp] theorem State.nowMs_snd_ret (s : State) : s.nowMs.2.ret = s.ret := by rw [State.nowMs_eq]; rfl
@[simp] theorem State.nowMs_snd_grain (s : State) : s.nowMs.2.grain = s.grain := by rw [State.nowMs_eq]; rfl
@[simp] theorem State.nowMs_snd_cfg (s : State) : s.nowMs.2.cfg = s.cfg := by rw [State.nowMs_eq]; rfl
@[simp] theorem State.nowMs_snd_rst (s : State) : s.nowMs.2.rst = s.rst := by rw [State.nowMs_eq]; rfl
@[simp] theorem State.nowMs_snd_cmds (s : State) : s.nowMs.2.cmds = s.cmds := by rw [State.nowMs_eq]; rfl
@[simp] theorem State.nowMs_snd_line (s : State) : s.nowMs.2.line = s.line := by rw [State.nowMs_eq]; rfl
@[simp] theorem State.nowMs_snd_lineDraws (s : State) : s.nowMs.2.lineDraws = s.lineDraws := by rw [State.nowMs_eq]; rfl
@[simp] theorem State.nowMs_snd_time (s : State) : s.nowMs.2.time = s.nextTime := by rw [State.nowMs_eq]; rfl
@[simp] theorem State.nowMs_snd_clock (s : State) : s.nowMs.2.clock = s.clock.tail := by rw [State.nowMs_eq]; rfl
@[simp] theorem State.nowMs_snd_clockDraws (s : State) : s.nowMs.2.clockDraws = s.clockDraws + (1 - s.clock.length) := by rw [State.nowMs_eq]; rfl
@[simp] theorem State.nowMs_snd_trace (s : State) : s.nowMs.2.trace = s.trace ++ [.now (nowOf s)] := by rw [State.nowMs_eq]; rfl

@[simp] theorem expect_bound (s : State) (level : Level) : (expect level s).2.bound = s.bound := by rw [expect_same]
@[simp] theorem expect_pin (s : State) (level : Level) : (expect level s).2.pin = s.pin := by rw [expect_same]
@[simp] theorem expect_lastMs (s : State) (level : Level) : (expect level s).2.lastMs = s.lastMs := by rw [expect_same]
@[simp] theorem expect_lastOk (s : State) (level : Level) : (expect level s).2.lastOk = s.lastOk := by rw [expect_same]
@[simp] theorem expect_phase (s : State) (level : Level) : (expect level s).2.phase = s.phase := by rw [expect_same]
@[simp] theorem expect_idx (s : State) (level : Level) : (expect level s).2.idx = s.idx := by rw [expect_same]
@[simp] theorem expect_crit (s : State) (level : Level) : (expect level s).2.crit = s.crit := by rw [expect_same]
@[simp] theorem expect_mode (s : State) (level : Level) : (expect level s).2.mode = s.mode := by rw [expect_same]
@[simp] theorem expect_drv (s : State) (level : Level) : (expect level s).2.drv = s.drv := by rw [expect_same]
@[simp] theorem expect_rsp (s : State) (level : Level) : (expect level s).2.rsp = s.rsp := by rw [expect_same]
@[simp] theorem expect_rspValid (s : State) (level : Level) : (expect level s).2.rspValid = s.rspValid := by rw [expect_same]
@[simp] theorem expect_cur (s : State) (level : Level) : (expect level s).2.cur = s.cur := by rw [expect_same]
@[simp] theorem expect_ret (s : State) (level : Level) : (expect level s).2.ret = s.ret := by rw [expect_same]
@[simp] theorem expect_grain (s : State) (level : Level) : (expect level s).2.grain = s.grain := by rw [expect_same]
@[simp] theorem expect_rst (s : State) (level : Level) : (expect level s).2.rst = s.rst := by rw [expect_same]
@[simp] theorem expect_cmds (s : State) (level : Level) : (expect level s).2.cmds = s.cmds := by rw [expect_same]
@[simp] theorem expect_time (s : State) (level : Level) : (expect level s).2.time = s.time := by rw [expect_same]
@[simp] theorem expect_clock (s : State) (level : Level) : (expect level s).2.clock = s.clock := by rw [expect_same]
@[simp] theorem expect_clockDraws (s : State) (level : Level) : (expect level s).2.clockDraws = s.clockDraws := by rw [expect_same]

@[simp] theorem captureLow_bound (s : State) (i : Fin 40) : (captureLow s i).bound = s.bound := by simp [captureLow]
@[simp] theorem captureLow_pin (s : State) (i : Fin 40) : (captureLow s i).pin = s.pin := by simp [captureLow]
@[simp] theorem captureLow_lastMs (s : State) (i : Fin 40) : (captureLow s i).lastMs = s.lastMs := by simp [captureLow]
@[simp] theorem captureLow_lastOk (s : State) (i : Fin 40) : (captureLow s i).lastOk = s.lastOk := by simp [captureLow]
@[simp] theorem captureLow_frame (s : State) (i : Fin 40) : (captureLow s i).frame = s.frame := by simp [captureLow]
@[simp] theorem captureLow_dur (s : State) (i : Fin 40) : (captureLow s i).dur = setDurLow s.dur i (expect .low s).1 := by simp [captureLow]
@[simp] theorem captureLow_phase (s : State) (i : Fin 40) : (captureLow s i).phase = s.phase := by simp [captureLow]
@[simp] theorem captureLow_idx (s : State) (i : Fin 40) : (captureLow s i).idx = s.idx := by simp [captureLow]
@[simp] theorem captureLow_crit (s : State) (i : Fin 40) : (captureLow s i).crit = s.crit := by simp [captureLow]
@[simp] theorem captureLow_mode (s : State) (i : Fin 40) : (captureLow s i).mode = s.mode := by simp [captureLow]
@[simp] theorem captureLow_drv (s : State) (i : Fin 40) : (captureLow s i).drv = s.drv := by simp [captureLow]
@[simp] theorem captureLow_rsp (s : State) (i : Fin 40) : (captureLow s i).rsp = s.rsp := by simp [captureLow]
@[simp] theorem captureLow_rspValid (s : State) (i : Fin 40) : (captureLow s i).rspValid = s.rspValid := by simp [captureLow]
@[simp] theorem captureLow_cur (s : State) (i : Fin 40) : (captureLow s i).cur = s.cur := by simp [captureLow]
@[simp] theorem captureLow_ret (s : State) (i : Fin 40) : (captureLow s i).ret = s.ret := by simp [captureLow]
@[simp] theorem captureLow_grain (s : State) (i : Fin 40) : (captureLow s i).grain = s.grain := by simp [captureLow]
@[simp] theorem captureLow_cfg (s : State) (i : Fin 40) : (captureLow s i).cfg = s.cfg := by simp [captureLow]
@[simp] theorem captureLow_rst (s : State) (i : Fin 40) : (captureLow s i).rst = s.rst := by simp [captureLow]
@[simp] theorem captureLow_cmds (s : State) (i : Fin 40) : (captureLow s i).cmds = s.cmds := by simp [captureLow]
@[simp] theorem captureLow_time (s : State) (i : Fin 40) : (captureLow s i).time = s.time := by simp [captureLow]
@[simp] theorem captureLow_clock (s : State) (i : Fin 40) : (captureLow s i).clock = s.clock := by simp [captureLow]
@[simp] theorem captureLow_clockDraws (s : State) (i : Fin 40) : (captureLow s i).clockDraws = s.clockDraws := by simp [captureLow]

@[simp] theorem captureHigh_bound (s : State) (i : Fin 40) : (captureHigh s i).bound = s.bound := by simp [captureHigh]
@[simp] theorem captureHigh_pin (s : State) (i : Fin 40) : (captureHigh s i).pin = s.pin := by simp [captureHigh]
@[simp] theorem captureHigh_lastMs (s : State) (i : Fin 40) : (captureHigh s i).lastMs = s.lastMs := by simp [captureHigh]
@[simp] theorem captureHigh_lastOk (s : State) (i : Fin 40) : (captureHigh s i).lastOk = s.lastOk := by simp [captureHigh]
@[simp] theorem captureHigh_frame (s : State) (i : Fin 40) : (captureHigh s i).frame = s.frame := by simp [captureHigh]
@[simp] theorem captureHigh_dur (s : State) (i : Fin 40) : (captureHigh s i).dur = setDurHigh s.dur i (expect .high s).1 := by simp [captureHigh]
@[simp] theorem captureHigh_phase (s : State) (i : Fin 40) : (captureHigh s i).phase = s.phase := by simp [captureHigh]
@[simp] theorem captureHigh_idx (s : State) (i : Fin 40) : (captureHigh s i).idx = s.idx := by simp [captureHigh]
@[simp] theorem captureHigh_crit (s : State) (i : Fin 40) : (captureHigh s i).crit = s.crit := by simp [captureHigh]
@[simp] theorem captureHigh_mode (s : State) (i : Fin 40) : (captureHigh s i).mode = s.mode := by simp [captureHigh]
@[simp] theorem captureHigh_drv (s : State) (i : Fin 40) : (captureHigh s i).drv = s.drv := by simp [captureHigh]
@[simp] theorem captureHigh_rsp (s : State) (i : Fin 40) : (captureHigh s i).rsp = s.rsp := by simp [captureHigh]
@[simp] theorem captureHigh_rspValid (s : State) (i : Fin 40) : (captureHigh s i).rspValid = s.rspValid := by simp [captureHigh]
@[simp] theorem captureHigh_cur (s : State) (i : Fin 40) : (captureHigh s i).cur = s.cur := by simp [captureHigh]
@[simp] theorem captureHigh_ret (s : State) (i : Fin 40) : (captureHigh s i).ret = s.ret := by simp [captureHigh]
@[simp] theorem captureHigh_grain (s : State) (i : Fin 40) : (captureHigh s i).grain = s.grain := by simp [captureHigh]
@[simp] theorem captureHigh_cfg (s : State) (i : Fin 40) : (captureHigh s i).cfg = s.cfg := by simp [captureHigh]
@[simp] theorem captureHigh_rst (s : State) (i : Fin 40) : (captureHigh s i).rst = s.rst := by simp [captureHigh]
@[simp] theorem captureHigh_cmds (s : State) (i : Fin 40) : (captureHigh s i).cmds = s.cmds := by simp [captureHigh]
@[simp] theorem captureHigh_time (s : State) (i : Fin 40) : (captureHigh s i).time = s.time := by simp [captureHigh]
@[simp] theorem captureHigh_clock (s : State) (i : Fin 40) : (captureHigh s i).clock = s.clock := by simp [captureHigh]
@[simp] theorem captureHigh_clockDraws (s : State) (i : Fin 40) : (captureHigh s i).clockDraws = s.clockDraws := by simp [captureHigh]

@[simp] theorem xfer_bound (s : State) : (xfer s).2.bound = s.bound := by obtain ⟨vs, h, -⟩ := xfer_cases s; rw [h]
@[simp] theorem xfer_pin (s : State) : (xfer s).2.pin = s.pin := by obtain ⟨vs, h, -⟩ := xfer_cases s; rw [h]
@[simp] theorem xfer_lastMs (s : State) : (xfer s).2.lastMs = s.lastMs := by obtain ⟨vs, h, -⟩ := xfer_cases s; rw [h]
@[simp] theorem xfer_lastOk (s : State) : (xfer s).2.lastOk = s.lastOk := by obtain ⟨vs, h, -⟩ := xfer_cases s; rw [h]
@[simp] theorem xfer_phase (s : State) : (xfer s).2.phase = s.phase := by obtain ⟨vs, h, -⟩ := xfer_cases s; rw [h]
@[simp] theorem xfer_crit (s : State) : (xfer s).2.crit = false := by obtain ⟨vs, h, -⟩ := xfer_cases s; rw [h]
@[simp] theorem xfer_mode (s : State) : (xfer s).2.mode = .inputPullup := by obtain ⟨vs, h, -⟩ := xfer_cases s; rw [h]
@[simp] theorem xfer_drv (s : State) : (xfer s).2.drv = .low := by obtain ⟨vs, h, -⟩ := xfer_cases s; rw [h]
@[simp] theorem xfer_rsp (s : State) : (xfer s).2.rsp = s.rsp := by obtain ⟨vs, h, -⟩ := xfer_cases s; rw [h]
@[simp] theorem xfer_rspValid (s : State) : (xfer s).2.rspValid = s.rspValid := by obtain ⟨vs, h, -⟩ := xfer_cases s; rw [h]
@[simp] theorem xfer_cur (s : State) : (xfer s).2.cur = s.cur := by obtain ⟨vs, h, -⟩ := xfer_cases s; rw [h]
@[simp] theorem xfer_ret (s : State) : (xfer s).2.ret = s.ret := by obtain ⟨vs, h, -⟩ := xfer_cases s; rw [h]
@[simp] theorem xfer_grain (s : State) : (xfer s).2.grain = s.grain := by obtain ⟨vs, h, -⟩ := xfer_cases s; rw [h]
@[simp] theorem xfer_cfg (s : State) : (xfer s).2.cfg = s.cfg := by obtain ⟨vs, h, -⟩ := xfer_cases s; rw [h]
@[simp] theorem xfer_rst (s : State) : (xfer s).2.rst = s.rst := by obtain ⟨vs, h, -⟩ := xfer_cases s; rw [h]
@[simp] theorem xfer_cmds (s : State) : (xfer s).2.cmds = s.cmds := by obtain ⟨vs, h, -⟩ := xfer_cases s; rw [h]
@[simp] theorem xfer_time (s : State) : (xfer s).2.time = s.time := by obtain ⟨vs, h, -⟩ := xfer_cases s; rw [h]
@[simp] theorem xfer_clock (s : State) : (xfer s).2.clock = s.clock := by obtain ⟨vs, h, -⟩ := xfer_cases s; rw [h]
@[simp] theorem xfer_clockDraws (s : State) : (xfer s).2.clockDraws = s.clockDraws := by obtain ⟨vs, h, -⟩ := xfer_cases s; rw [h]

end Sys2Proof.Machine
end

