-- ==== Sys2Proof/Laws/Step.lean ====
section
/-! SUPPORT. What one step can be, said once: a hardware reset, a command performed whole, the refusal of a word, or one
phase of the sequencer. -/

namespace Sys2Proof.Machine

open Sys2Proof.Safety

/-- A command word decodes to one of the four host commands (R81). -/
theorem decodeCmd_cases {w : CmdWord} {i : Instr} (h : decodeCmd w = .ok i) :
    (∃ p, i = .construct p) ∨ i = .begin ∨ i = .read ∨ i = .getspecs := by
  unfold decodeCmd decodePlain at h
  repeat' split at h
  all_goals first
    | (injection h with h; subst h; simp)
    | exact absurd h (by simp)

@[simp] theorem decodePhase_phaseCode (p : Phase) : decodePhase (phaseCode p) = .ok (phaseInstr p) := by
  cases p <;> rfl

theorem step_reset (s : State) (h : s.rst = true) : step s = .next s.hardReset := by
  simp [step, h]

/-- A command word at the grain of commands (R110). -/
theorem step_command (s : State) (w : CmdWord) (rest : List CmdWord) (hr : s.rst = false) (hg : s.grain = .command)
    (hp : s.phase = .idle) (hc : s.cmds = w :: rest) :
    step s = match decodeCmd w with
      | .ok i => exec i { s with cmds := rest, rspValid := false }
      | .error _ => .next (State.refuse { s with cmds := rest, rspValid := false }) := by
  simp only [step, hr, fetch, hg, hp, hc, Bool.false_eq_true, if_false]
  cases decodeCmd w <;> rfl

/-- One phase of the sequencer (R153). -/
theorem step_phase (s : State) (hr : s.rst = false) (h : s.grain = .phase ∨ s.phase ≠ .idle ∨ s.cmds = []) :
    step s = exec (phaseInstr s.phase) { s with rspValid := false } := by
  have : fetch s = (decodePhase (phaseCode s.phase), { s with rspValid := false }) := by
    unfold fetch
    split
    · rename_i hg hp hc
      rcases h with h | h | h
      · rw [hg] at h; cases h
      · exact absurd hp h
      · rw [hc] at h; cases h
    · rfl
  simp [step, hr, this]

/-- What a step can be. -/
theorem step_cases {s t : State} (h : step s = .next t) :
    (s.rst = true ∧ t = s.hardReset) ∨
    (s.rst = false ∧ s.grain = .command ∧ s.phase = .idle ∧ ∃ w rest, s.cmds = w :: rest ∧
      ((∃ i, decodeCmd w = .ok i ∧ exec i { s with cmds := rest, rspValid := false } = .next t) ∨
       ((∃ e, decodeCmd w = .error e) ∧ t = State.refuse { s with cmds := rest, rspValid := false }))) ∨
    (s.rst = false ∧ (s.grain = .phase ∨ s.phase ≠ .idle ∨ s.cmds = []) ∧
      exec (phaseInstr s.phase) { s with rspValid := false } = .next t) := by
  by_cases hr : s.rst = true
  · rw [step_reset s hr] at h
    cases h
    exact .inl ⟨hr, rfl⟩
  · have hr : s.rst = false := by simpa using hr
    refine .inr ?_
    by_cases hn : s.grain = .phase ∨ s.phase ≠ .idle ∨ s.cmds = []
    · exact .inr ⟨hr, hn, by rw [← step_phase s hr hn]; exact h⟩
    · push Not at hn
      obtain ⟨hg, hp, hc⟩ := hn
      have hg' : s.grain = .command := by cases hx : s.grain <;> simp_all
      obtain ⟨w, rest, hw⟩ := List.exists_cons_of_ne_nil hc
      refine .inl ⟨hr, hg', hp, w, rest, hw, ?_⟩
      rw [step_command s w rest hr hg' hp hw] at h
      cases hd : decodeCmd w with
      | ok i => rw [hd] at h; exact .inl ⟨i, rfl, h⟩
      | error e => rw [hd] at h; cases h; exact .inr ⟨⟨e, rfl⟩, rfl⟩

/-- A command word placed by `withFetchWord` is what the next step runs (log 10, log 11). -/
theorem step_withFetchWord_command (s : State) (w : Nat) (i : Instr) (h : decodeTableWord 16 w = some i) :
    step (s.withFetchWord 16 w)
      = exec i { s with rst := false, rspValid := false, grain := .command, phase := .idle } := by
  simp only [decodeTableWord, if_true] at h
  split at h
  · rw [show s.withFetchWord 16 w = placeCommand s (BitVec.ofNat 16 w) from rfl,
      step_command _ (BitVec.ofNat 16 w) s.cmds rfl rfl rfl rfl]
    cases hx : decodeCmd (BitVec.ofNat 16 w) with
    | ok j => simp only [hx, Except.toOption, Option.some.injEq] at h; subst h; rfl
    | error e => simp [hx, Except.toOption] at h
  · cases h

/-- A phase code placed by `withFetchWord` is what the next step runs (log 10, log 11). -/
theorem step_withFetchWord_phase (s : State) (w : Nat) (i : Instr) (h : decodeTableWord 8 w = some i) :
    ∃ p, i = phaseInstr p ∧
      step (s.withFetchWord 8 w) = exec i { s with rst := false, rspValid := false, grain := .phase, phase := p } := by
  simp only [decodeTableWord, decodePhase] at h
  rw [if_neg (by decide), if_pos (by decide)] at h
  split at h
  · cases hx : phaseOfCode (BitVec.ofNat 4 w) with
    | none => simp [hx, Except.toOption] at h
    | some p =>
      simp only [hx, Except.toOption, Option.some.injEq] at h
      subst h
      refine ⟨p, rfl, ?_⟩
      simp only [State.withFetchWord, placePhase, hx]
      rw [if_neg (by decide), step_phase _ rfl (.inl rfl)]
  · cases h

/-! ### Every step, case by case -/

/-- The state with `rsp_valid` lowered, on which a phase runs. -/
abbrev quiet (s : State) : State := { s with rspValid := false }

/-- The state on which a command performed whole runs: the word is consumed. -/
abbrev taken (s : State) (rest : List CmdWord) : State := { s with cmds := rest, rspValid := false }

/-- Everything a step can be, with its guard: a hardware reset, a command performed whole, or one row of the transition
table of R153. -/
inductive Steps (s : State) : State → Prop where
  | reset : s.rst = true → Steps s s.hardReset
  | refuse (w : CmdWord) (rest : List CmdWord) : s.rst = false → s.phase = .idle → s.grain = .command → s.cmds = w :: rest →
      Steps s (State.refuse (taken s rest))
  | construct (w : CmdWord) (rest : List CmdWord) (p : BitVec 8) : s.rst = false → s.phase = .idle → s.grain = .command →
      s.cmds = w :: rest →
      decodeCmd w = .ok (.construct p) → s.bound = false → Steps s (respondTo (bindPin p (taken s rest)) .construct)
  | begin (w : CmdWord) (rest : List CmdWord) : s.rst = false → s.phase = .idle → s.grain = .command → s.cmds = w :: rest →
      decodeCmd w = .ok .begin →
      s.bound = true → Steps s (respondTo (beginEffect (taken s rest)) .begin)
  | readCached (w : CmdWord) (rest : List CmdWord) : s.rst = false → s.phase = .idle → s.grain = .command →
      s.cmds = w :: rest →
      decodeCmd w = .ok .read → s.bound = true → gate (nowOf s) s.lastMs = .cached →
      Steps s (respondTo (taken s rest).nowMs.2 .read)
  | readFresh (w : CmdWord) (rest : List CmdWord) : s.rst = false → s.phase = .idle → s.grain = .command →
      s.cmds = w :: rest →
      decodeCmd w = .ok .read → s.bound = true → gate (nowOf s) s.lastMs = .fresh →
      Steps s (respondTo (readFresh (nowOf s) (taken s rest).nowMs.2) .read)
  | getspecs (w : CmdWord) (rest : List CmdWord) : s.rst = false → s.phase = .idle → s.grain = .command →
      s.cmds = w :: rest →
      decodeCmd w = .ok .getspecs → s.bound = true → Steps s (respondTo (taken s rest) .getspecs)
  | wait : s.rst = false → s.phase = .idle → s.cmds = [] → Steps s (goto (quiet s) .idle)
  | acceptRefused (w : CmdWord) (rest : List CmdWord) : s.rst = false → s.phase = .idle → s.grain = .phase →
      s.cmds = w :: rest → Steps s (toRespond (taken s rest) .refused)
  | acceptConstruct (w : CmdWord) (rest : List CmdWord) (p : BitVec 8) : s.rst = false → s.phase = .idle →
      s.grain = .phase → s.cmds = w :: rest →
      decodeCmd w = .ok (.construct p) → s.bound = false → Steps s (toRespond (bindPin p (taken s rest)) .construct)
  | acceptBegin (w : CmdWord) (rest : List CmdWord) : s.rst = false → s.phase = .idle → s.grain = .phase →
      s.cmds = w :: rest →
      decodeCmd w = .ok .begin → s.bound = true → Steps s (toRespond (beginEffect (taken s rest)) .begin)
  | acceptRead (w : CmdWord) (rest : List CmdWord) : s.rst = false → s.phase = .idle → s.grain = .phase →
      s.cmds = w :: rest →
      decodeCmd w = .ok .read → s.bound = true → Steps s { taken s rest with phase := .gate, cur := .read }
  | acceptSpecs (w : CmdWord) (rest : List CmdWord) : s.rst = false → s.phase = .idle → s.grain = .phase →
      s.cmds = w :: rest →
      decodeCmd w = .ok .getspecs → s.bound = true → Steps s (toRespond (taken s rest) .getspecs)
  | gateCached : s.rst = false → s.phase = .gate → gate (nowOf s) s.lastMs = .cached →
      Steps s (goto (quiet s).nowMs.2 .respond)
  | gateFresh : s.rst = false → s.phase = .gate → gate (nowOf s) s.lastMs = .fresh →
      Steps s (goto { (quiet s).nowMs.2 with lastMs := nowOf s } .clear)
  | clear : s.rst = false → s.phase = .clear → Steps s (goto (clearFrame (quiet s)) .startPre)
  | startPre : s.rst = false → s.phase = .startPre → Steps s (goto (startPrePart (quiet s)) .startLow)
  | startLow : s.rst = false → s.phase = .startLow → Steps s (goto (startLowPart (quiet s)) .startRel)
  | startRel : s.rst = false → s.phase = .startRel → Steps s (goto (startRelPart (quiet s)).critEnter .ackLow)
  | ackLowFail : s.rst = false → s.phase = .ackLow → (expect .low (quiet s)).1 = Config.timeout →
      Steps s (failExchange (expect .low (quiet s)).2.critExit)
  | ackLowPass : s.rst = false → s.phase = .ackLow → (expect .low (quiet s)).1 ≠ Config.timeout →
      Steps s (goto (expect .low (quiet s)).2 .ackHigh)
  | ackHighFail : s.rst = false → s.phase = .ackHigh → (expect .high (quiet s)).1 = Config.timeout →
      Steps s (failExchange (expect .high (quiet s)).2.critExit)
  | ackHighPass : s.rst = false → s.phase = .ackHigh → (expect .high (quiet s)).1 ≠ Config.timeout →
      Steps s (goto { (expect .high (quiet s)).2 with idx := 0 } .capLow)
  | capLow : s.rst = false → s.phase = .capLow → Steps s (goto (captureLow (quiet s) s.idx) .capHigh)
  | capHighMore (h : s.idx.val < 39) : s.rst = false → s.phase = .capHigh →
      Steps s (goto { captureHigh (quiet s) s.idx with idx := ⟨s.idx.val + 1, by omega⟩ } .capLow)
  | capHighLast : s.rst = false → s.phase = .capHigh → s.idx.val = 39 →
      Steps s (goto { (captureHigh (quiet s) s.idx).critExit with idx := 0 } .decode)
  | decodeFail : s.rst = false → s.phase = .decode → anyTimeout s.dur = true → Steps s (failExchange (quiet s))
  | decodeMore (h : s.idx.val < 39) : s.rst = false → s.phase = .decode → anyTimeout s.dur = false →
      Steps s (goto { packCurrent (quiet s) with idx := ⟨s.idx.val + 1, by omega⟩ } .decode)
  | decodeLast : s.rst = false → s.phase = .decode → anyTimeout s.dur = false → s.idx.val = 39 →
      Steps s (goto (packCurrent (quiet s)) .csum)
  | csum : s.rst = false → s.phase = .csum → Steps s (goto { quiet s with lastOk := checksumOk s.frame } .respond)
  | respond : s.rst = false → s.phase = .respond → Steps s (respondTo (quiet s) s.cur)

theorem steps_command {s t : State} {w : CmdWord} {rest : List CmdWord} {i : Instr} (hr : s.rst = false)
    (hg : s.grain = .command) (hp : s.phase = .idle) (hc : s.cmds = w :: rest) (hd : decodeCmd w = .ok i)
    (h : exec i (taken s rest) = .next t) : Steps s t := by
  rcases decodeCmd_cases hd with ⟨p, rfl⟩ | rfl | rfl | rfl <;>
    simp only [exec, execConstruct, execBegin, execRead, execGetspecs, whenIdle, whenBound, hp, if_true,
      Host.Outcome.next.injEq] at h <;> subst h <;> split
  · exact .refuse w rest hr hp hg hc
  · exact .construct w rest p hr hp hg hc hd (by simp_all)
  · exact .begin w rest hr hp hg hc hd (by assumption)
  · exact .refuse w rest hr hp hg hc
  · have e : (taken s rest).nowMs.1 = nowOf s := by rw [State.nowMs_val]; rfl
    unfold readEffect
    simp only [e]
    cases hx : gate (nowOf s) s.lastMs
    · exact .readCached w rest hr hp hg hc hd (by assumption) hx
    · exact .readFresh w rest hr hp hg hc hd (by assumption) hx
  · exact .refuse w rest hr hp hg hc
  · exact .getspecs w rest hr hp hg hc hd (by assumption)
  · exact .refuse w rest hr hp hg hc

theorem steps_idle {s t : State} (hr : s.rst = false) (hp : s.phase = .idle) (hn : s.grain = .phase ∨ s.cmds = [])
    (h : execIdle (quiet s) = .next t) : Steps s t := by
  unfold execIdle at h
  cases hc : s.cmds with
  | nil =>
    simp only [hc, Host.Outcome.next.injEq] at h
    subst h
    exact .wait hr hp hc
  | cons w rest =>
    have hg : s.grain = .phase := by simpa [hc] using hn
    simp only [hc, Host.Outcome.next.injEq] at h
    subst h
    unfold acceptWord
    cases hd : decodeCmd w with
    | error e => exact .acceptRefused w rest hr hp hg hc
    | ok i =>
      rcases decodeCmd_cases hd with ⟨p, rfl⟩ | rfl | rfl | rfl <;> simp only [acceptInstr] <;> split
      · exact .acceptRefused w rest hr hp hg hc
      · exact .acceptConstruct w rest p hr hp hg hc hd (by simp_all)
      · exact .acceptBegin w rest hr hp hg hc hd (by assumption)
      · exact .acceptRefused w rest hr hp hg hc
      · exact .acceptRead w rest hr hp hg hc hd (by assumption)
      · exact .acceptRefused w rest hr hp hg hc
      · exact .acceptSpecs w rest hr hp hg hc hd (by assumption)
      · exact .acceptRefused w rest hr hp hg hc

theorem steps_phase {s t : State} (hr : s.rst = false) (hn : s.grain = .phase ∨ s.phase ≠ .idle ∨ s.cmds = [])
    (h : exec (phaseInstr s.phase) (quiet s) = .next t) : Steps s t := by
  cases hp : s.phase <;> rw [hp] at h <;> simp only [phaseInstr, exec] at h
  · exact steps_idle hr hp (by simpa [hp] using hn) h
  · have e : (quiet s).nowMs.1 = nowOf s := by rw [State.nowMs_val]; rfl
    simp only [execGate, e, Host.Outcome.next.injEq] at h
    subst h
    cases hx : gate (nowOf s) s.lastMs
    · exact .gateCached hr hp hx
    · exact .gateFresh hr hp hx
  · simp only [execClear, Host.Outcome.next.injEq] at h; subst h; exact .clear hr hp
  · simp only [execStartPre, Host.Outcome.next.injEq] at h; subst h; exact .startPre hr hp
  · simp only [execStartLow, Host.Outcome.next.injEq] at h; subst h; exact .startLow hr hp
  · simp only [execStartRel, Host.Outcome.next.injEq] at h; subst h; exact .startRel hr hp
  · simp only [execAckLow, Host.Outcome.next.injEq] at h; subst h; split
    · exact .ackLowFail hr hp (by assumption)
    · exact .ackLowPass hr hp (by assumption)
  · simp only [execAckHigh, Host.Outcome.next.injEq] at h; subst h; split
    · exact .ackHighFail hr hp (by assumption)
    · exact .ackHighPass hr hp (by assumption)
  · simp only [execCapLow, Host.Outcome.next.injEq] at h; subst h; exact .capLow hr hp
  · simp only [execCapHigh, Host.Outcome.next.injEq] at h; subst h; split
    · exact .capHighMore (by assumption) hr hp
    · exact .capHighLast hr hp (by omega)
  · simp only [execDecode, Host.Outcome.next.injEq] at h; subst h; split
    · exact .decodeFail hr hp (by assumption)
    · have hx : anyTimeout s.dur = false := by simpa using ‹¬ anyTimeout (quiet s).dur = true›
      split
      · exact .decodeMore (by assumption) hr hp hx
      · exact .decodeLast hr hp hx (by omega)
  · simp only [execCsum, Host.Outcome.next.injEq] at h; subst h; exact .csum hr hp
  · simp only [execRespond, Host.Outcome.next.injEq] at h; subst h; exact .respond hr hp

/-- Every step is one of the cases of `Steps`. -/
theorem step_inv {s t : State} (h : step s = .next t) : Steps s t := by
  rcases step_cases h with ⟨hr, rfl⟩ | ⟨hr, hg, hp, w, rest, hc, ⟨i, hd, he⟩ | ⟨-, rfl⟩⟩ | ⟨hr, hn, he⟩
  · exact .reset hr
  · exact steps_command hr hg hp hc hd he
  · exact .refuse w rest hr hp hg hc
  · exact steps_phase hr hn he

end Sys2Proof.Machine
end

