-- ==== Sys2Proof/Laws/Frame.lean ====
section
/-! SUPPORT. The frame and the durations: one bit packed, two frames equal bit by bit, the sentinel test, the checksum; and
the scan of events. -/

namespace Sys2Proof.Machine

open Sys2Proof.Safety

/-- A bit written into a byte. -/
theorem setBit_getLsbD (x : Byte) (k j : Nat) (b : Bool) (hk : k < 8) (hj : j < 8) :
    (setBit x k b).getLsbD j = if j = k then b else x.getLsbD j := by
  unfold setBit
  interval_cases k <;> interval_cases j <;> cases b <;> simp

/-- Packing bit `i` writes that wire bit and no other (R148). -/
theorem wireBit_packBit (f : Vector Byte 5) (i j : Fin 40) (b : Bool) :
    wireBit (packBit f i b) j = if j = i then b else wireBit f j := by
  unfold wireBit packBit
  by_cases h : i.val / 8 = j.val / 8
  · simp only [Vector.getElem_set, h, if_true]
    rw [setBit_getLsbD _ _ _ _ (by omega) (by omega)]
    by_cases e : j = i
    · simp [e]
    · have : 7 - j.val % 8 ≠ 7 - i.val % 8 := by
        intro hh; apply e; ext; omega
      simp [e, this]
  · have : j ≠ i := by rintro rfl; exact h rfl
    simp [h, this]

/-- A frame is its forty wire bits (R85). -/
theorem frame_ext {f g : Vector Byte 5} (h : ∀ i, wireBit f i = wireBit g i) : f = g := by
  ext k hk j hj
  rw [← BitVec.getLsbD_eq_getElem, ← BitVec.getLsbD_eq_getElem]
  have := h ⟨8 * k + (7 - j), by omega⟩
  unfold wireBit at this
  have e1 : (8 * k + (7 - j)) / 8 = k := by omega
  have e2 : 7 - (8 * k + (7 - j)) % 8 = j := by omega
  simp only [e1, e2] at this
  exact this

/-- The sentinel test (R88, R147). -/
theorem anyTimeout_iff (d : Vector Word 80) : anyTimeout d = true ↔ hasTimeout d := by
  unfold anyTimeout hasTimeout
  simp only [List.any_eq_true, Bool.or_eq_true, beq_iff_eq, bitIndices, List.mem_finRange, true_and]
  constructor
  · rintro ⟨i, h | h⟩
    · exact ⟨⟨2 * i.val, by omega⟩, h⟩
    · exact ⟨⟨2 * i.val + 1, by omega⟩, h⟩
  · rintro ⟨k, h⟩
    refine ⟨⟨k.val / 2, by omega⟩, ?_⟩
    unfold durLow durHigh
    rcases Nat.mod_two_eq_zero_or_one k.val with e | e
    · left
      have : 2 * (k.val / 2) = k.val := by omega
      simp only [this]; exact h
    · right
      have : 2 * (k.val / 2) + 1 = k.val := by omega
      simp only [this]; exact h

/-- The checksum test (R149). -/
theorem checksumOk_iff (f : Vector Byte 5) :
    checksumOk f = true ↔ f[4].toNat = (f[0].toNat + f[1].toNat + f[2].toNat + f[3].toNat) % 256 := by
  simp [checksumOk, frameSum]

/-- The Reading a `READ` delivers (R191). -/
theorem reading_mkReading (ok : Bool) (f : Vector Byte 5) :
    Response.reading (mkReading ok f) = if ok then readingOf f else noReading := by
  cases ok <;> rfl

/-- The scan of a sequence of events in two parts (R60). -/
theorem critScan_append (c : Bool) (es fs : List Event) :
    critScan c (es ++ fs) = (critScan c es).bind (fun d => critScan d fs) := by
  induction es generalizing c with
  | nil => rfl
  | cons e es ih =>
    cases e <;> simp only [List.cons_append, critScan] <;> try (exact ih _)
    all_goals split <;> simp [ih]

/-- Reads inside the section leave it open (R60). -/
theorem critScan_reads (vs : List Level) : critScan true (vs.map Event.read) = some true := by
  induction vs with
  | nil => rfl
  | cons v vs ih => simpa [critScan] using ih

end Sys2Proof.Machine
end

