-- ==== Sys2Proof/Laws/PerInstr.lean ====
section
/-! SUPPORT. Statements made per instruction: every instruction is well formed, and its encoding lies in its row of the
opcode table (R81, R27, R95). -/

/-- `i` is well formed, and its encoding lies in the row of `i`. -/
def Sys2Proof.Laws.EncodesRow.Statement (i : Sys2Proof.Instr) : Prop :=
  i.wellFormed = true ∧ Sys2Proof.inRow (Sys2Proof.encode i) (Sys2Proof.opcodeRow i) = true

theorem Sys2Proof.Laws.EncodesRow.construct (pin : BitVec 8) :
    Sys2Proof.Laws.EncodesRow.Statement (.construct pin) := by
  unfold Sys2Proof.Laws.EncodesRow.Statement
  revert pin
  decide

theorem Sys2Proof.Laws.EncodesRow.begin : Sys2Proof.Laws.EncodesRow.Statement .begin := by
  unfold Sys2Proof.Laws.EncodesRow.Statement
  decide

theorem Sys2Proof.Laws.EncodesRow.read : Sys2Proof.Laws.EncodesRow.Statement .read := by
  unfold Sys2Proof.Laws.EncodesRow.Statement
  decide

theorem Sys2Proof.Laws.EncodesRow.getspecs : Sys2Proof.Laws.EncodesRow.Statement .getspecs := by
  unfold Sys2Proof.Laws.EncodesRow.Statement
  decide

theorem Sys2Proof.Laws.EncodesRow.idle : Sys2Proof.Laws.EncodesRow.Statement .idle := by
  unfold Sys2Proof.Laws.EncodesRow.Statement
  decide

theorem Sys2Proof.Laws.EncodesRow.gate : Sys2Proof.Laws.EncodesRow.Statement .gate := by
  unfold Sys2Proof.Laws.EncodesRow.Statement
  decide

theorem Sys2Proof.Laws.EncodesRow.clear : Sys2Proof.Laws.EncodesRow.Statement .clear := by
  unfold Sys2Proof.Laws.EncodesRow.Statement
  decide

theorem Sys2Proof.Laws.EncodesRow.startPre : Sys2Proof.Laws.EncodesRow.Statement .startPre := by
  unfold Sys2Proof.Laws.EncodesRow.Statement
  decide

theorem Sys2Proof.Laws.EncodesRow.startLow : Sys2Proof.Laws.EncodesRow.Statement .startLow := by
  unfold Sys2Proof.Laws.EncodesRow.Statement
  decide

theorem Sys2Proof.Laws.EncodesRow.startRel : Sys2Proof.Laws.EncodesRow.Statement .startRel := by
  unfold Sys2Proof.Laws.EncodesRow.Statement
  decide

theorem Sys2Proof.Laws.EncodesRow.ackLow : Sys2Proof.Laws.EncodesRow.Statement .ackLow := by
  unfold Sys2Proof.Laws.EncodesRow.Statement
  decide

theorem Sys2Proof.Laws.EncodesRow.ackHigh : Sys2Proof.Laws.EncodesRow.Statement .ackHigh := by
  unfold Sys2Proof.Laws.EncodesRow.Statement
  decide

theorem Sys2Proof.Laws.EncodesRow.capLow : Sys2Proof.Laws.EncodesRow.Statement .capLow := by
  unfold Sys2Proof.Laws.EncodesRow.Statement
  decide

theorem Sys2Proof.Laws.EncodesRow.capHigh : Sys2Proof.Laws.EncodesRow.Statement .capHigh := by
  unfold Sys2Proof.Laws.EncodesRow.Statement
  decide

theorem Sys2Proof.Laws.EncodesRow.decode : Sys2Proof.Laws.EncodesRow.Statement .decode := by
  unfold Sys2Proof.Laws.EncodesRow.Statement
  decide

theorem Sys2Proof.Laws.EncodesRow.csum : Sys2Proof.Laws.EncodesRow.Statement .csum := by
  unfold Sys2Proof.Laws.EncodesRow.Statement
  decide

theorem Sys2Proof.Laws.EncodesRow.respond : Sys2Proof.Laws.EncodesRow.Statement .respond := by
  unfold Sys2Proof.Laws.EncodesRow.Statement
  decide

theorem Sys2Proof.Laws.EncodesRow.xfer : Sys2Proof.Laws.EncodesRow.Statement .xfer := by
  unfold Sys2Proof.Laws.EncodesRow.Statement
  decide

theorem Sys2Proof.Laws.EncodesRow.expect (level : Sys2Proof.Level) :
    Sys2Proof.Laws.EncodesRow.Statement (.expect level) := by
  unfold Sys2Proof.Laws.EncodesRow.Statement
  cases level <;> decide

theorem Sys2Proof.Laws.EncodesRow.ctemp : Sys2Proof.Laws.EncodesRow.Statement .ctemp := by
  unfold Sys2Proof.Laws.EncodesRow.Statement
  decide

theorem Sys2Proof.Laws.EncodesRow.chum : Sys2Proof.Laws.EncodesRow.Statement .chum := by
  unfold Sys2Proof.Laws.EncodesRow.Statement
  decide

theorem Sys2Proof.Laws.EncodesRow.mkreading : Sys2Proof.Laws.EncodesRow.Statement .mkreading := by
  unfold Sys2Proof.Laws.EncodesRow.Statement
  decide
end

