-- ==== Sys2Proof/Tests/Slice0.lean ====
section
/-! SUPPORT. The model's own tests: decoding words, the well-formedness smoke test, at most two one-step tests per
instruction with results from 95_test_vectors.md, and for every obligation with hypotheses a state that meets them. The
block has no memory (20_memory.md R50), so nothing here is about one. -/

namespace Sys2Proof.Tests

open Sys2Proof Sys2Proof.Machine Sys2Proof.Safety

/-! ### Helpers -/

/-- The Specs record of vector V11. -/
def specsV11 : SpecsParams :=
  { name := 0x5445535444455600, tMin := 0xC1200000, tMax := 0x42700000, tRes := 0x3F000000, hMin := 0x00000000,
    hMax := 0x42C80000, hRes := 0x3F800000 }

/-- A configuration with `MAXC` = `m` + 1 and `PRE_PULLUP_MS` = 1. -/
def config (m : Fin 4294967295) : Config := { maxcLessOne := m, prePullupMs := 1, specs := specsV11 }

/-- A bound, idle block with `MAXC` = `m` + 1, the line's answers `line` and the next clock answer `now`. -/
def ready (m : Fin 4294967295) (line : List Level) (now : Nat) : State :=
  { State.reset with bound := true, pin := 4, cfg := config m, line := line, clock := [now] }

/-- The same block in a phase, at the grain of phases. -/
def inPhase (p : Phase) (m : Fin 4294967295) (line : List Level) : State :=
  { ready m line 0 with phase := p, grain := .phase }

/-- What holds of the next state. -/
def after (o : Host.Outcome State Fault Refusal) (P : State → Bool) : Bool :=
  match o with
  | .next t => P t
  | .fault _ => false
  | .refused _ => false

/-- The frame [45, 0, 25, 0, 70] of program P1. -/
def frameP1 : Vector Byte 5 := #v[45, 0, 25, 0, 70]

/-- The frame [60, 3, 10, 0x8D, 214] of program P5. -/
def frameP5 : Vector Byte 5 := #v[60, 3, 10, 0x8D, 214]

/-! ### Decoding: words written out bit by bit from R80 to R83, R27 and R95 -/

/-- `op` = 0001, `z` = 0000, `arg` = 00000100 (V1: 0x1004). -/
theorem test_decode_construct : decode (.cmd 0b0001000000000100) = .ok (.construct 4) := by decide
/-- 0x10FF (V1). -/
theorem test_decode_construct_255 : decode (.cmd 0b0001000011111111) = .ok (.construct 255) := by decide
theorem test_decode_begin : decode (.cmd 0b0010000000000000) = .ok .begin := by decide
theorem test_decode_read : decode (.cmd 0b0011000000000000) = .ok .read := by decide
theorem test_decode_getspecs : decode (.cmd 0b0100000000000000) = .ok .getspecs := by decide
theorem test_decode_idle : decode (.phase 0b0000) = .ok .idle := by decide
theorem test_decode_gate : decode (.phase 0b0001) = .ok .gate := by decide
theorem test_decode_clear : decode (.phase 0b0010) = .ok .clear := by decide
theorem test_decode_startPre : decode (.phase 0b0011) = .ok .startPre := by decide
theorem test_decode_startLow : decode (.phase 0b0100) = .ok .startLow := by decide
theorem test_decode_startRel : decode (.phase 0b0101) = .ok .startRel := by decide
theorem test_decode_ackLow : decode (.phase 0b0110) = .ok .ackLow := by decide
theorem test_decode_ackHigh : decode (.phase 0b0111) = .ok .ackHigh := by decide
theorem test_decode_capLow : decode (.phase 0b1000) = .ok .capLow := by decide
theorem test_decode_capHigh : decode (.phase 0b1001) = .ok .capHigh := by decide
theorem test_decode_decode : decode (.phase 0b1010) = .ok .decode := by decide
theorem test_decode_csum : decode (.phase 0b1011) = .ok .csum := by decide
theorem test_decode_respond : decode (.phase 0b1100) = .ok .respond := by decide
theorem test_decode_xfer : decode (.func 0b0000) = .ok .xfer := by decide
theorem test_decode_expect_low : decode (.func 0b0010) = .ok (.expect .low) := by decide
theorem test_decode_expect_high : decode (.func 0b0011) = .ok (.expect .high) := by decide
theorem test_decode_ctemp : decode (.func 0b0100) = .ok .ctemp := by decide
theorem test_decode_chum : decode (.func 0b0110) = .ok .chum := by decide
theorem test_decode_mkreading : decode (.func 0b1000) = .ok .mkreading := by decide

/-- The reserved words of V1, each refused by name. -/
theorem test_decode_reserved :
    decode (.cmd 0x0000) = .error (.reservedOpcode 0) ∧ decode (.cmd 0x1104) = .error (.nonZeroZ 1) ∧
    decode (.cmd 0x1F00) = .error (.nonZeroZ 15) ∧ decode (.cmd 0x2001) = .error (.nonZeroArg 1) ∧
    decode (.cmd 0x3080) = .error (.nonZeroArg 0x80) ∧ decode (.cmd 0x4100) = .error (.nonZeroZ 1) ∧
    decode (.cmd 0x5000) = .error (.reservedOpcode 5) ∧ decode (.cmd 0xFFFF) = .error (.reservedOpcode 15) := by decide
/-- Phase codes 13 to 15 (R27) and unused function-select codes (R95). -/
theorem test_decode_reserved_codes :
    decode (.phase 13) = .error (.reservedPhase 13) ∧ decode (.phase 15) = .error (.reservedPhase 15) ∧
    decode (.func 0b0001) = .error (.unusedFunc 1) ∧ decode (.func 0b0101) = .error (.unusedFunc 5) ∧
    decode (.func 0b1010) = .error (.unusedFunc 10) ∧ decode (.func 0b1111) = .error (.unusedFunc 15) := by decide

/-- What the host asks of one row of each format of the table. -/
theorem test_decodeTableWord :
    decodeTableWord 16 0x1000 = some (.construct 0) ∧ decodeTableWord 8 0xC = some .respond ∧
    decodeTableWord 8 0xD = none ∧ decodeTableWord 16 0x10000 = none := by decide

/-! ### Well-formedness: one ill-formed term for each check, refused -/

/-- A well-formed instance (V11's record, `MAXC` = 1000). -/
def good : Params := { maxc := 1000, prePullupMs := 1, specs := specsV11 }

theorem test_wellFormed_good :
    good.wellFormed = true ∧ (good.toConfig).map Config.maxc = some 1000 ∧ good.portOk = true := by decide
/-- `MAXC` = 0 (U11). -/
theorem test_wellFormed_maxc_zero :
    { good with maxc := 0 }.wellFormed = false ∧ { good with maxc := 0 }.toConfig = none := by decide
/-- `MAXC` = 2^32: a count could equal the sentinel (U11, R88); 2^32 − 1 is the last allowed. -/
theorem test_wellFormed_maxc_large :
    { good with maxc := 2 ^ 32 }.wellFormed = false ∧ { good with maxc := 2 ^ 32 - 1 }.wellFormed = true := by decide
/-- A byte of the name is not ASCII (R91). -/
theorem test_wellFormed_name_ascii :
    { good with specs := { specsV11 with name := 0x5480000000000000 } }.nameOk = false := by decide
/-- A character after the padding (R91). -/
theorem test_wellFormed_name_padding :
    { good with specs := { specsV11 with name := 0x5400530000000000 } }.nameOk = false := by decide
/-- `dly_n` has 16 bits (R51). -/
theorem test_wellFormed_port : { good with prePullupMs := 65536 }.portOk = false := by decide
/-- Every instruction is well formed by its types; the two with an operand are checked at its ends. -/
theorem test_wellFormed_instr :
    (Instr.construct 255).wellFormed = true ∧ (Instr.expect .low).wellFormed = true ∧
    (Instr.expect .high).wellFormed = true := by decide

/-! ### The commands -/

/-- V1: `CONSTRUCT 4` on an unbound block. -/
theorem test_construct :
    after (exec (.construct 4) State.reset) (fun t => t.bound && t.pin == 4 && t.rsp == .ok && t.trace == []) = true := by
  decide
/-- P5 command 6: a second `CONSTRUCT` is refused. -/
theorem test_construct_twice :
    after (exec (.construct 9) (ready 15 [] 0)) (fun t => t.bound && t.pin == 4 && t.rsp == .err && t.trace == []) = true := by
  decide
/-- P1 command 2: `BEGIN` at 500. -/
theorem test_begin :
    after (exec .begin (ready 15 [] 500)) (fun t => t.lastMs == 0xFFFFFA24 && t.mode == .inputPullup && t.rsp == .ok &&
      t.trace == [.mode .inputPullup, .now 500]) = true := by decide
/-- P5 command 2: `BEGIN` on an unbound block. -/
theorem test_begin_unbound :
    after (exec .begin State.reset) (fun t => t.rsp == .err && t.mode == .unset && t.trace == []) = true := by decide
/-- P1 command 4: `elapsed` = 1999, the cached Reading of [45, 0, 25, 0, 70]. -/
theorem test_read_cached :
    after (exec .read { ready 15 [] 2499 with lastMs := 500, lastOk := true, frame := frameP1 })
      (fun t => t.rsp == .reading ⟨some 0x41C80000, some 0x42340000, true⟩ && t.trace == [.now 2499] && t.lastMs == 500)
      = true := by decide +kernel
/-- P3 command 1 with `MAXC` = 4: a line stuck HIGH costs `MAXC` + 1 reads. -/
theorem test_read_stuck_high :
    after (exec .read (ready 3 (List.replicate 9 .high) 4500)) (fun t => t.rsp == .reading ⟨none, none, false⟩ &&
      t.lastMs == 4500 && t.crit == false && t.mode == .inputPullup && t.line == List.replicate 4 .high &&
      t.trace == [.now 4500, .mode .inputPullup, .delayMs 1, .mode .output, .write .low, .delayMs 20, .mode .inputPullup,
        .delayUs 55, .critEnter, .read .high, .read .high, .read .high, .read .high, .read .high, .critExit]) = true := by
  decide +kernel
/-- V11. -/
theorem test_getspecs :
    after (exec .getspecs (ready 15 [] 0)) (fun t =>
      t.rsp == .specs ⟨0x5445535444455600, 0xC1200000, 0x42700000, 0x3F000000, 0, 0x42C80000, 0x3F800000, 2000⟩ &&
      t.trace == []) = true := by decide
/-- V11: the 288-bit response. -/
theorem test_getspecs_word :
    rspSpecs (ready 15 [] 0) = 0x5445535444455600_C1200000_42700000_3F000000_00000000_42C80000_3F800000_000007D0 := by
  decide +kernel

/-! ### The phases (R153) -/

theorem test_idle :
    after (exec .idle { inPhase .idle 3 [] with cmds := [0x3000] }) (fun t => t.phase == .gate && t.cmds == []) = true := by
  decide
theorem test_idle_refuses :
    after (exec .idle { inPhase .idle 3 [] with cmds := [0x1104] }) (fun t =>
      t.phase == .respond && t.cur == .refused && t.trace == []) = true := by decide
/-- V2: `LAST_MS` = 0xFFFFFFFF, `t` = 1998: cached across the wrap. -/
theorem test_gate_cached :
    after (exec .gate { inPhase .gate 3 [] with lastMs := 0xFFFFFFFF, clock := [1998] }) (fun t =>
      t.phase == .respond && t.lastMs == 0xFFFFFFFF) = true := by decide
/-- V2: `t` = 1999: fresh. -/
theorem test_gate_fresh :
    after (exec .gate { inPhase .gate 3 [] with lastMs := 0xFFFFFFFF, clock := [1999] }) (fun t =>
      t.phase == .clear && t.lastMs == 1999) = true := by decide
theorem test_clear :
    after (exec .clear { inPhase .clear 3 [] with frame := frameP1 }) (fun t =>
      t.phase == .startPre && t.frame == #v[0, 0, 0, 0, 0]) = true := by decide
theorem test_startPre :
    after (exec .startPre (inPhase .startPre 3 [])) (fun t => t.phase == .startLow && t.mode == .inputPullup &&
      t.trace == [.mode .inputPullup, .delayMs 1]) = true := by decide
theorem test_startLow :
    after (exec .startLow { inPhase .startLow 3 [] with drv := .high }) (fun t => t.phase == .startRel &&
      t.mode == .output && t.drv == .low && t.trace == [.mode .output, .write .low, .delayMs 20]) = true := by decide
theorem test_startRel :
    after (exec .startRel (inPhase .startRel 3 [])) (fun t => t.phase == .ackLow && t.mode == .inputPullup && t.crit &&
      t.trace == [.mode .inputPullup, .delayUs 55, .critEnter]) = true := by decide
/-- V4 row 1, LOW part: `a0` = 2 after 3 reads. -/
theorem test_ackLow :
    after (exec .ackLow (inPhase .ackLow 3 [.low, .low, .high, .high, .low])) (fun t =>
      t.phase == .ackHigh && t.cnt == 2 && t.line == [.high, .low]) = true := by decide
/-- V4 row 4: the LOW pulse times out. -/
theorem test_ackLow_timeout :
    after (exec .ackLow { inPhase .ackLow 3 (List.replicate 5 .low) with crit := true, lastOk := true }) (fun t =>
      t.phase == .respond && t.lastOk == false && t.crit == false && t.line == [.low]) = true := by decide
/-- V4 row 1, HIGH part: `a1` = 1. -/
theorem test_ackHigh :
    after (exec .ackHigh { inPhase .ackHigh 3 [.high, .low] with idx := 7 }) (fun t =>
      t.phase == .capLow && t.cnt == 1 && t.idx == 0 && t.line == []) = true := by decide
/-- V4 row 3: the HIGH pulse times out. -/
theorem test_ackHigh_timeout :
    after (exec .ackHigh { inPhase .ackHigh 3 (List.replicate 4 .high) with crit := true }) (fun t =>
      t.phase == .respond && t.lastOk == false && t.crit == false) = true := by decide
theorem test_capLow :
    after (exec .capLow { inPhase .capLow 3 [.low, .low, .high] with idx := 5 }) (fun t =>
      t.phase == .capHigh && t.dur[10] == 2 && t.idx == 5) = true := by decide
theorem test_capLow_timeout :
    after (exec .capLow { inPhase .capLow 3 (List.replicate 4 .low) with idx := 39 }) (fun t =>
      t.phase == .capHigh && t.dur[78] == 0xFFFFFFFF && t.dur[79] == 0) = true := by decide
theorem test_capHigh :
    after (exec .capHigh { inPhase .capHigh 3 [.high, .low] with idx := 5, crit := true }) (fun t =>
      t.phase == .capLow && t.dur[11] == 1 && t.idx == 6 && t.crit) = true := by decide
theorem test_capHigh_last :
    after (exec .capHigh { inPhase .capHigh 3 [.low] with idx := 39, crit := true }) (fun t =>
      t.phase == .decode && t.dur[79] == 0 && t.idx == 0 && t.crit == false && t.trace == [.read .low, .critExit]) = true := by
  decide
/-- V5: `DUR` = 3, 5 at bit 24 sets the sign flag. -/
theorem test_decode :
    after (exec .decode { inPhase .decode 3 [] with idx := 24, dur := (State.reset.dur.set 48 3).set 49 5 }) (fun t =>
      t.phase == .decode && t.idx == 25 && t.frame == #v[0, 0, 0, 0x80, 0]) = true := by decide
/-- V5: 3, `TIMEOUT` fails. -/
theorem test_decode_timeout :
    after (exec .decode { inPhase .decode 3 [] with dur := (State.reset.dur.set 48 3).set 49 0xFFFFFFFF, lastOk := true })
      (fun t => t.phase == .respond && t.lastOk == false && t.frame == #v[0, 0, 0, 0, 0]) = true := by decide
/-- V6: 300 mod 256 = 44. -/
theorem test_csum :
    after (exec .csum { inPhase .csum 3 [] with frame := #v[200, 100, 0, 0, 44] }) (fun t =>
      t.phase == .respond && t.lastOk) = true := by decide
/-- V6: 70 ≠ 71. -/
theorem test_csum_fails :
    after (exec .csum { inPhase .csum 3 [] with frame := #v[45, 0, 25, 0, 71], lastOk := true }) (fun t =>
      t.phase == .respond && t.lastOk == false) = true := by decide
/-- V10: the 65-bit word of [60, 3, 10, 0x8D, 214]. -/
theorem test_respond :
    after (exec .respond { inPhase .respond 3 [] with cur := .read, lastOk := true, frame := frameP5 }) (fun t =>
      t.phase == .idle && t.rspValid && rspReading t.rsp == some 0x1_C11B3333_42713333) = true := by decide +kernel
/-- V10: the invalid Reading. -/
theorem test_respond_invalid :
    after (exec .respond { inPhase .respond 3 [] with cur := .read, lastOk := false, frame := frameP5 }) (fun t =>
      t.phase == .idle && t.rspValid && rspReading t.rsp == some 0x0_7FC00000_7FC00000) = true := by decide

/-! ### The functions -/

/-- V4 row 3 with `MAXC` = 4: the handshake fails after 1 + 4 reads, `FRAME` zero. -/
theorem test_xfer_fails :
    after (exec .xfer { ready 3 (List.replicate 6 .high) 0 with frame := frameP1 }) (fun t =>
      t.ret == .ok false && t.frame == #v[0, 0, 0, 0, 0] && t.crit == false && t.line == [.high]) = true := by decide
/-- V3 row 3: `MAXC` = 4, L L L H gives 3. -/
theorem test_expect_counts :
    after (exec (.expect .low) (ready 3 [.low, .low, .low, .high] 0)) (fun t => t.ret == .duration 3 && t.line == []) = true := by
  decide
/-- V3 row 4: L L L L H gives `TIMEOUT` after 4 reads, the H unconsumed. -/
theorem test_expect_timeout :
    after (exec (.expect .low) (ready 3 [.low, .low, .low, .low, .high] 0)) (fun t =>
      t.ret == .duration 0xFFFFFFFF && t.line == [.high]) = true := by decide
/-- V9: 10, 0x8D gives −9.7. -/
theorem test_ctemp :
    after (exec .ctemp { ready 3 [] 0 with frame := frameP5 }) (fun t => t.ret == .float 0xC11B3333) = true := by decide +kernel
/-- V9: 0, 0x8A gives +0. -/
theorem test_ctemp_zero :
    after (exec .ctemp { ready 3 [] 0 with frame := #v[0, 0, 0, 0x8A, 0] }) (fun t => t.ret == .float 0) = true := by decide +kernel
/-- V8: 60, 3 gives 60.3. -/
theorem test_chum :
    after (exec .chum { ready 3 [] 0 with frame := frameP5 }) (fun t => t.ret == .float 0x42713333) = true := by decide +kernel
/-- V8: 0, 9 gives 0x3F666667, not the double-precision result. -/
theorem test_chum_binary32 :
    after (exec .chum { ready 3 [] 0 with frame := #v[0, 9, 0, 0, 0] }) (fun t => t.ret == .float 0x3F666667) = true := by decide +kernel
/-- V10. -/
theorem test_mkreading :
    after (exec .mkreading { ready 3 [] 0 with lastOk := true, frame := frameP1 }) (fun t =>
      t.ret == .reading ⟨some 0x41C80000, some 0x42340000, true⟩) = true := by decide +kernel
theorem test_mkreading_invalid :
    after (exec .mkreading { ready 3 [] 0 with frame := frameP1 }) (fun t =>
      t.ret == .reading ⟨none, none, false⟩) = true := by decide

/-! ### Witnesses: states and operands that meet the hypotheses of the obligations, clause by clause -/

/-- The next state of an outcome that is one. -/
def result (o : Host.Outcome State Fault Refusal) : State :=
  match o with
  | .next t => t
  | .fault _ => State.reset
  | .refused _ => State.reset

/-- An idle bound block whose next `READ` is fresh: `elapsed` = 2000 exactly. -/
def fresh (m : Fin 4294967295) (line : List Level) : State := ready m line 2000

/-- `MAXC` = 1, every pulse of one sample: all 82 counts are 0 (program P6). -/
def alternating : State := fresh 0 (frameScript 0 0 (fun _ => 0) (fun _ => 0))

/-- `MAXC` = 2, bit 39 alone is 1: the frame [0, 0, 0, 0, 1], whose checksum fails (V6). -/
def oneBit : State := fresh 1 (frameScript 0 0 (fun _ => 0) (fun i => if i = 39 then 1 else 0))

/-- `MAXC` = 1, as `alternating`, but the last HIGH pulse does not end: bit 39 times out. -/
def lastStuck : State := fresh 0 ((frameScript 0 0 (fun _ => 0) (fun _ => 0)).dropLast ++ [.high])

/-- Exactly one code decodes to each side of the equivalence, both ways. -/
theorem witness_DecodeExactlyEncode :
    decode (.cmd 0x10FF) = .ok (.construct 255) ∧ encode (.construct 255) = .cmd 0x10FF ∧
    decode (.func 0b0011) = .ok (.expect .high) ∧ encode (.expect .high) = .func 0b0011 := by decide

theorem witness_CommandWordSelectsRow :
    (0x10FF : CmdWord) &&& 0xFF00 = 0x1000 ∧ (0x2000 : CmdWord) &&& 0xFFFF = 0x2000 ∧
    (0x3000 : CmdWord) &&& 0xFFFF = 0x3000 ∧ (0x4000 : CmdWord) &&& 0xFFFF = 0x4000 := by decide

theorem witness_OpcodeRowsDisjointAndDecoded :
    inRow (.cmd 0x10FF) (opcodeRow (.construct 0)) = true ∧ inRow (.cmd 0x10FF) (opcodeRow (.construct 255)) = true ∧
    inRow (.phase 2) (opcodeRow .clear) = true ∧ inRow (.func 2) (opcodeRow (.expect .high)) = true ∧
    inRow (.func 2) (opcodeRow .clear) = false := by decide

/-- One reserved word for each of the rule's three kinds, at the ends of their ranges. -/
theorem witness_ReservedWordIsRefused :
    (reservedWord 0x0000 ∧ reservedWord 0x5000 ∧ reservedWord 0xFFFF) ∧ (reservedWord 0x1104 ∧ reservedWord 0x4F00) ∧
    (reservedWord 0x2001 ∧ reservedWord 0x40FF) ∧ ¬ reservedWord 0x10FF ∧ ¬ reservedWord 0x4000 ∧
    ∃ s : State, s.rst = false ∧ s.phase = .idle ∧ s.cmds = 0x5000 :: [] ∧ s.grain = .command := by
  refine ⟨?_, ?_, ?_, ?_, ?_, ⟨{ State.reset with cmds := [0x5000] }, rfl, rfl, rfl, rfl⟩⟩ <;>
    (unfold reservedWord; decide)

theorem witness_StepRunsFetchedInstruction :
    (∃ s : State, s.rst = false ∧ s.grain = .command ∧ s.phase = .idle ∧ s.cmds = 0x1004 :: [] ∧
      decodeCmd 0x1004 = .ok (.construct 4)) ∧
    (∃ s : State, s.rst = false ∧ s.grain = .phase ∧ decode (.phase (phaseCode s.phase)) = .ok .csum) ∧
    (∃ s : State, s.rst = false ∧ s.grain = .command ∧ s.phase ≠ .idle ∧ decode (.phase (phaseCode s.phase)) = .ok .gate) ∧
    (∃ s : State, s.rst = false ∧ s.cmds = [] ∧ decode (.phase (phaseCode s.phase)) = .ok .idle) :=
  ⟨⟨{ State.reset with cmds := [0x1004] }, rfl, rfl, rfl, rfl, by decide⟩, ⟨inPhase .csum 0 [], rfl, rfl, rfl⟩,
   ⟨{ State.reset with phase := .gate }, rfl, rfl, by decide, rfl⟩, ⟨State.reset, rfl, rfl, rfl⟩⟩

/-- In the middle of a command too. -/
theorem witness_HardwareResetAbandonsCommand :
    ∃ s : State, s.rst = true ∧ s.phase = .capHigh ∧ s.crit = true ∧ s.bound = true :=
  ⟨{ inPhase .capHigh 3 [] with rst := true, crit := true }, rfl, rfl, rfl, rfl⟩

theorem witness_ResetAndConstructValues : (Instr.begin = .begin ∨ Instr.begin = .read ∨ Instr.begin = .getspecs) :=
  .inl rfl

theorem witness_ConstructBindsPinOnce :
    (State.reset.phase = .idle ∧ State.reset.bound = false) ∧
    ((ready 0 [] 0).phase = .idle ∧ (ready 0 [] 0).bound = true) := by decide

theorem witness_BeginSeedsTimestamp :
    ((ready 0 [] 0).phase = .idle ∧ (ready 0 [] 0).bound = true) ∧
    (State.reset.phase = .idle ∧ State.reset.bound = false) := by decide

/-- Both ends of the range in which the gate after the seed is fresh, and both sides of 2000. -/
theorem witness_GateIsModularElapsed :
    (0 < 2 ^ 32 - 2000 ∧ 2 ^ 32 - 2001 < 2 ^ 32 - 2000) ∧
    gate (BitVec.ofNat 32 1999) 0 = .cached ∧ gate (BitVec.ofNat 32 2000) 0 = .fresh := by decide

/-- The three clauses, the two paths at the two sides of the boundary. -/
theorem witness_ReadFollowsGate :
    (State.reset.phase = .idle ∧ State.reset.bound = false) ∧
    ((ready 0 [] 1999).phase = .idle ∧ (ready 0 [] 1999).bound = true ∧
      (nowOf (ready 0 [] 1999) - (ready 0 [] 1999).lastMs).toNat < 2000) ∧
    ((ready 0 [] 2000).phase = .idle ∧ (ready 0 [] 2000).bound = true ∧
      ¬ (nowOf (ready 0 [] 2000) - (ready 0 [] 2000).lastMs).toNat < 2000) := by decide

theorem witness_ReadCachedTouchesNothing :
    (ready 0 [] 1999).phase = .idle ∧ (ready 0 [] 1999).bound = true ∧
    gate (nowOf (ready 0 [] 1999)) (ready 0 [] 1999).lastMs = .cached := by decide

/-- A fresh `READ` with each of the two results. -/
theorem witness_ReadFreshOutcome :
    (alternating.phase = .idle ∧ alternating.bound = true ∧ gate (nowOf alternating) alternating.lastMs = .fresh) ∧
    (result (exec .read alternating)).lastOk = true ∧ (result (exec .read oneBit)).lastOk = false := by
  decide +kernel

theorem alternating_ackPasses : ackPasses alternating := by
  refine ⟨0, 0, by decide, by decide, ?_, by decide, ?_, by decide⟩ <;> (intro k h; omega)

theorem lastStuck_ackPasses : ackPasses lastStuck := by
  refine ⟨0, 0, by decide, by decide, ?_, by decide, ?_, by decide⟩ <;> (intro k h; omega)

theorem oneBit_ackPasses : ackPasses oneBit := by
  refine ⟨0, 0, by decide, by decide, ?_, by decide, ?_, by decide⟩ <;> (intro k h; omega)

/-- A line stuck LOW, `MAXC` = 2. -/
theorem stuckLow_not_ackPasses : ¬ ackPasses (fresh 1 [.low, .low]) := by
  rintro ⟨a0, a1, h0, -, -, e0, -⟩
  have h : a0 < 2 := h0
  interval_cases a0 <;> revert e0 <;> decide

/-- Both counts: the acknowledgment passes, and it does not. -/
theorem witness_ReadFreshTrace :
    (∃ s t : State, s.phase = .idle ∧ s.bound = true ∧ gate (nowOf s) s.lastMs = .fresh ∧ exec .read s = .next t ∧
      ackPasses s) ∧
    (∃ s t : State, s.phase = .idle ∧ s.bound = true ∧ gate (nowOf s) s.lastMs = .fresh ∧ exec .read s = .next t ∧
      ¬ ackPasses s) :=
  ⟨⟨alternating, result (exec .read alternating), rfl, rfl, by decide, rfl, alternating_ackPasses⟩,
   ⟨fresh 1 [.low, .low], result (exec .read (fresh 1 [.low, .low])), rfl, rfl, by decide, rfl, stuckLow_not_ackPasses⟩⟩

/-- The LOW timeout, and the HIGH timeout after the longest LOW pulse that does not time out. -/
theorem witness_HandshakeTimeoutFailsRead :
    (∃ s : State, s.phase = .idle ∧ s.bound = true ∧ gate (nowOf s) s.lastMs = .fresh ∧
      ∀ k < s.cfg.maxc, upcoming s k = .low) ∧
    (∃ (s : State) (n : Nat), s.phase = .idle ∧ s.bound = true ∧ gate (nowOf s) s.lastMs = .fresh ∧ n < s.cfg.maxc ∧
      (∀ k < n, upcoming s k = .low) ∧ upcoming s n = .high ∧ ∀ k < s.cfg.maxc, upcoming s (n + 1 + k) = .high) := by
  refine ⟨⟨fresh 1 [.low, .low], rfl, rfl, by decide, ?_⟩,
    ⟨fresh 1 [.low, .high, .high, .high], 1, rfl, rfl, by decide, by decide, ?_, by decide, ?_⟩⟩
  · intro k h
    have h : k < 2 := h
    interval_cases k <;> decide
  · intro k h
    interval_cases k
    decide
  · intro k h
    have h : k < 2 := h
    interval_cases k <;> decide

theorem witness_BitTimeoutFailsRead :
    ∃ s t : State, s.phase = .idle ∧ s.bound = true ∧ gate (nowOf s) s.lastMs = .fresh ∧ ackPasses s ∧
      exec .read s = .next t ∧ hasTimeout t.dur :=
  ⟨lastStuck, result (exec .read lastStuck), rfl, rfl, by decide, lastStuck_ackPasses, rfl,
   by rw [← anyTimeout_iff]; decide +kernel⟩

/-- All forty bits real: a checksum that fails and one that holds. -/
theorem witness_ChecksumMismatchFailsRead :
    (∃ s t : State, s.phase = .idle ∧ s.bound = true ∧ gate (nowOf s) s.lastMs = .fresh ∧ ackPasses s ∧
      exec .read s = .next t ∧ ¬ hasTimeout t.dur ∧ checksumOk t.frame = false) ∧
    (∃ s t : State, s.phase = .idle ∧ s.bound = true ∧ gate (nowOf s) s.lastMs = .fresh ∧ ackPasses s ∧
      exec .read s = .next t ∧ ¬ hasTimeout t.dur ∧ checksumOk t.frame = true) := by
  refine ⟨⟨oneBit, result (exec .read oneBit), rfl, rfl, by decide, oneBit_ackPasses, rfl, ?_, by decide +kernel⟩,
    ⟨alternating, result (exec .read alternating), rfl, rfl, by decide, alternating_ackPasses, rfl, ?_,
      by decide +kernel⟩⟩ <;> (rw [← anyTimeout_iff]; decide +kernel)

/-- Two `READ`s, the second cached, after a cached one and after a fresh one. -/
theorem witness_RepeatedReadIsIdempotent :
    (∃ s t : State, s.phase = .idle ∧ s.bound = true ∧ exec .read s = .next t ∧ gate (nowOf t) t.lastMs = .cached) ∧
    gate (nowOf { alternating with clock := [2000, 1999] }) alternating.lastMs = .fresh ∧
    gate (nowOf (result (exec .read { alternating with clock := [2000, 1999] })))
      (result (exec .read { alternating with clock := [2000, 1999] })).lastMs = .cached := by
  refine ⟨⟨{ ready 0 [] 0 with clock := [500, 1499] }, result (exec .read { ready 0 [] 0 with clock := [500, 1499] }),
    rfl, rfl, rfl, by decide +kernel⟩, ?_, ?_⟩ <;> decide +kernel

/-- At once, and at the last millisecond the rule covers. -/
theorem witness_BeginPermitsImmediateRead :
    (∃ s t : State, s.phase = .idle ∧ s.bound = true ∧ exec .begin s = .next t ∧ t.nextTime < t.time + (2 ^ 32 - 2000)) ∧
    (result (exec .begin { ready 0 [] 0 with clock := [7, 4294965295] })).nextTime = 7 + (2 ^ 32 - 2001) := by
  refine ⟨⟨{ ready 0 [] 0 with clock := [600, 0] }, result (exec .begin { ready 0 [] 0 with clock := [600, 0] }),
    rfl, rfl, rfl, by decide +kernel⟩, by decide +kernel⟩

theorem witness_ReadBeforeBegin :
    ((ready 0 [] 1999).phase = .idle ∧ (ready 0 [] 1999).bound = true ∧ (ready 0 [] 1999).lastMs = 0 ∧
      (ready 0 [] 1999).lastOk = false ∧ (nowOf (ready 0 [] 1999)).toNat < 2000) ∧
    2000 ≤ (nowOf (ready 0 [] 2000)).toNat := by decide

theorem witness_GetSpecsReturnsRecord :
    ((ready 0 [] 0).phase = .idle ∧ (ready 0 [] 0).bound = true) ∧
    (State.reset.phase = .idle ∧ State.reset.bound = false) := by decide

theorem witness_CommandWaitsForIdle :
    (∃ s : State, s.phase ≠ .idle ∧ s.cmds = [0x3000]) ∧
    (∃ s t : State, s.rst = false ∧ s.phase ≠ .idle ∧ step s = .next t ∧ s.cmds = [0x3000]) :=
  ⟨⟨{ inPhase .gate 0 [] with cmds := [0x3000] }, by decide, rfl⟩,
   ⟨{ inPhase .clear 0 [] with cmds := [0x3000] }, result (step { inPhase .clear 0 [] with cmds := [0x3000] }), rfl,
    by decide, rfl, rfl⟩⟩

/-- No word; each command bound; `CONSTRUCT` unbound and bound; `READ` unbound. -/
theorem witness_IdleAcceptsCommand :
    (State.reset.phase = .idle ∧ State.reset.cmds = []) ∧
    (decodeCmd 0x10FF = .ok (.construct 255) ∧ State.reset.bound = false) ∧
    (decodeCmd 0x2000 = .ok .begin ∧ decodeCmd 0x3000 = .ok .read ∧ decodeCmd 0x4000 = .ok .getspecs ∧
      (ready 0 [] 0).bound = true) ∧
    ∃ s : State, s.cmds = 0x3000 :: [0x4000] := by
  refine ⟨⟨rfl, rfl⟩, ⟨by decide, rfl⟩, ⟨by decide, by decide, by decide, rfl⟩,
    ⟨{ State.reset with cmds := [0x3000, 0x4000] }, rfl⟩⟩

/-- `IDX` at both ends of its range. -/
theorem witness_CapturePhaseTransitions :
    (∃ (s : State) (j : Fin 40), j.val = s.idx.val + 1 ∧ s.idx.val = 0) ∧
    (∃ (s : State) (j : Fin 40), j.val = s.idx.val + 1 ∧ s.idx.val = 38) ∧ ∃ s : State, s.idx.val = 39 :=
  ⟨⟨State.reset, 1, rfl, rfl⟩, ⟨{ State.reset with idx := 38 }, 39, rfl, rfl⟩, ⟨{ State.reset with idx := 39 }, rfl⟩⟩

/-- A sentinel in the last element; none, with `IDX` at 38 and at 39. -/
theorem witness_DecodePhaseTransitions :
    hasTimeout (State.reset.dur.set 79 0xFFFFFFFF) ∧
    (∃ s : State, ¬ hasTimeout s.dur ∧ s.idx.val < 39) ∧ (∃ s : State, ¬ hasTimeout s.dur ∧ s.idx.val = 39) := by
  have h : ¬ hasTimeout State.reset.dur := by rw [← anyTimeout_iff]; decide
  exact ⟨⟨79, by decide⟩, ⟨{ State.reset with idx := 38 }, h, by decide⟩, ⟨{ State.reset with idx := 39 }, h, rfl⟩⟩

/-- `MAXC` = 4: runs of 0 and of `MAXC` − 1, and a run that reaches `MAXC` (V3 rows 1, 3, 4). -/
theorem witness_ExpectMeasuresRun :
    (∃ s : State, s.cfg.maxc = 4 ∧ (∀ k < 0, upcoming s k = .low) ∧ upcoming s 0 ≠ .low) ∧
    (∃ s : State, s.cfg.maxc = 4 ∧ (∀ k < 3, upcoming s k = .low) ∧ upcoming s 3 ≠ .low) ∧
    (∃ s : State, s.cfg.maxc = 4 ∧ ∀ k < s.cfg.maxc, upcoming s k = .low) ∧
    3 < (config 3).maxc := by
  refine ⟨⟨ready 3 [.high] 0, rfl, by decide, by decide⟩, ⟨ready 3 [.low, .low, .low, .high] 0, rfl, ?_, by decide⟩,
    ⟨ready 3 [.low, .low, .low, .low, .high] 0, rfl, ?_⟩, by decide⟩
  · intro k h
    interval_cases k <;> decide
  · intro k h
    have h : k < 4 := h
    interval_cases k <;> decide

/-- V3 row 9: L×3 H×5 L with `MAXC` = 8; and the shortest pulses, `a` = 0 and `b` = 1, with `MAXC` = 2. -/
theorem witness_EndingSampleIsConsumed :
    (∃ s : State, 3 < s.cfg.maxc ∧ 5 < s.cfg.maxc ∧
      s.line = List.replicate 3 .low ++ List.replicate 5 .high ++ .low :: []) ∧
    (∃ s : State, 0 < s.cfg.maxc ∧ 1 < s.cfg.maxc ∧ s.line = List.replicate 0 .low ++ List.replicate 1 .high ++ .low :: []) :=
  ⟨⟨ready 7 [.low, .low, .low, .high, .high, .high, .high, .high, .low] 0, by decide, by decide, rfl⟩,
   ⟨ready 1 [.high, .low] 0, by decide, by decide, rfl⟩⟩

/-- The three outcomes of the exchange. -/
theorem witness_XferOutcomes :
    ¬ ackPasses (fresh 1 [.low, .low]) ∧
    (ackPasses lastStuck ∧ hasTimeout (result (exec .xfer lastStuck)).dur) ∧
    (ackPasses oneBit ∧ ¬ hasTimeout (result (exec .xfer oneBit)).dur) := by
  refine ⟨stuckLow_not_ackPasses, ⟨lastStuck_ackPasses, by rw [← anyTimeout_iff]; decide +kernel⟩, oneBit_ackPasses, ?_⟩
  rw [← anyTimeout_iff]
  decide +kernel

theorem witness_CtempFormula :
    (∃ f : Vector Byte 5, f[2] = 25 ∧ f[3] = 0x80) ∧ (∃ f : Vector Byte 5, f[2] = 25 ∧ f[3] = 0x00) ∧
    (∃ f : Vector Byte 5, f[2] = 0 ∧ f[3] = 0x8A) :=
  ⟨⟨#v[0, 0, 25, 0x80, 0], rfl, rfl⟩, ⟨#v[0, 0, 25, 0, 0], rfl, rfl⟩, ⟨#v[0, 0, 0, 0x8A, 0], rfl, rfl⟩⟩

theorem witness_ChumFormula :
    (∃ f : Vector Byte 5, f[1] = 0) ∧ (∃ f : Vector Byte 5, f[1] = 5) ∧ (∃ f : Vector Byte 5, f[1] = 10) ∧
    (∃ f : Vector Byte 5, f[0] = 255 ∧ f[1] = 255) ∧ (∃ f : Vector Byte 5, f[0] = 45 ∧ f[1] = 5) :=
  ⟨⟨#v[1, 0, 0, 0, 0], rfl⟩, ⟨#v[0, 5, 0, 0, 0], rfl⟩, ⟨#v[0, 10, 0, 0, 0], rfl⟩, ⟨#v[255, 255, 0, 0, 0], rfl, rfl⟩,
   ⟨#v[45, 5, 0, 0, 0], rfl, rfl⟩⟩

/-- Finite operands with a finite result; a sum that is exactly zero. -/
theorem witness_ArithmeticIsCorrectlyRounded :
    (f32Exp 0x41100000 ≠ 255 ∧ f32Exp tenth ≠ 255 ∧ f32Exp 0x3F666666 ≠ 255 ∧ f32Exp (fmul 0x41100000 tenth) ≠ 255) ∧
    f32Exp (fadd 0x41100000 tenth) ≠ 255 ∧
    (f32Exp 0x3F800000 ≠ 255 ∧ f32Exp minusOne ≠ 255 ∧ f32Val 0x3F800000 + f32Val minusOne = 0) := by decide +kernel

/-- Frames that differ only in bytes and bits the converter does not read. -/
theorem witness_ConverterReadsOnlyItsBytes :
    (∃ f g : Vector Byte 5, f[2] = g[2] ∧ f[3] &&& 0x8F = g[3] &&& 0x8F ∧ f ≠ g) ∧
    (∃ f g : Vector Byte 5, f[0] = g[0] ∧ f[1] = g[1] ∧ f ≠ g) :=
  ⟨⟨#v[1, 0, 25, 0x70, 0], #v[2, 0, 25, 0x00, 9], by decide, by decide, by decide⟩,
   ⟨#v[1, 2, 25, 0, 0], #v[1, 2, 26, 0, 0], by decide, by decide, by decide⟩⟩

theorem witness_DecodeIsScaleInvariant :
    ∃ (d e : Vector Word 80) (k : Nat), 0 < k ∧ (∀ j : Fin 80, e[j].toNat = k * d[j].toNat) ∧ d ≠ e :=
  ⟨Vector.replicate 80 3, Vector.replicate 80 6, 2, by decide, by decide, by decide⟩

/-- The transition that opens the section and the one that closes it. -/
theorem witness_StepKeepsCritMatched :
    (∃ s t : State, CritMatches s ∧ step s = .next t ∧ s.phase = .startRel) ∧
    (∃ s t : State, CritMatches s ∧ step s = .next t ∧ s.phase = .capHigh ∧ s.idx = 39) :=
  ⟨⟨inPhase .startRel 0 [], result (step (inPhase .startRel 0 [])), rfl, rfl, rfl⟩,
   ⟨{ inPhase .capHigh 0 [.low] with crit := true, idx := 39 },
    result (step { inPhase .capHigh 0 [.low] with crit := true, idx := 39 }), rfl, rfl, rfl, rfl⟩⟩

/-- A checked frame in `IDLE`, and a frame about to be checked. -/
theorem witness_StepKeepsFrameChecked :
    (∃ s t : State, FrameChecked s ∧ step s = .next t ∧ s.lastOk = true ∧ s.frame = frameP1) ∧
    (∃ s t : State, FrameChecked s ∧ step s = .next t ∧ s.phase = .csum) := by
  refine ⟨⟨{ ready 0 [] 0 with lastOk := true, frame := frameP1 }, _, ?_, rfl, rfl, rfl⟩,
    ⟨inPhase .csum 0 [], result (step (inPhase .csum 0 [])), ?_, rfl, rfl⟩⟩
  · intro _ _ _
    decide
  · intro h
    cases h

theorem witness_StepKeepsLineReleased :
    (∃ s t : State, (LineReleased s ∧ PollsAsInput s ∧ ExchangeBound s) ∧ step s = .next t ∧ s.phase = .startRel ∧
      s.mode = .output) ∧
    (∃ s t : State, (LineReleased s ∧ PollsAsInput s ∧ ExchangeBound s) ∧ step s = .next t ∧ s.phase = .ackLow) := by
  refine ⟨⟨{ inPhase .startRel 0 [] with mode := .output }, result (step { inPhase .startRel 0 [] with mode := .output }),
      ⟨?_, ?_, ?_⟩, rfl, rfl, rfl⟩,
    ⟨{ inPhase .ackLow 0 [] with mode := .inputPullup }, result (step { inPhase .ackLow 0 [] with mode := .inputPullup }),
      ⟨?_, ?_, ?_⟩, rfl, rfl⟩⟩
  · intro _; rfl
  · intro h; cases h
  · intro _ _; rfl
  · intro h; cases h
  · intro _; rfl
  · intro _ _; rfl

theorem witness_StepKeepsBoundPin :
    ∃ s t : State, s.rst = false ∧ s.bound = true ∧ step s = .next t ∧ s.cmds = [0x1009] :=
  ⟨{ ready 0 [] 0 with cmds := [0x1009] }, result (step { ready 0 [] 0 with cmds := [0x1009] }), rfl, rfl, rfl, rfl⟩

theorem witness_PinValueIsIrrelevant : ∃ s t : State, step s = .next t ∧ s.phase = .ackLow :=
  ⟨inPhase .ackLow 0 [.high], result (step (inPhase .ackLow 0 [.high])), rfl, rfl⟩

/-- A `GATE` phase, a `BEGIN` and a `READ` performed whole: the three steps that can write `LAST_MS`. -/
theorem witness_StepTimestampsAreMonotone :
    (∃ s t : State, s.rst = false ∧ step s = .next t ∧ s.phase = .gate) ∧
    (∃ s t : State, s.rst = false ∧ step s = .next t ∧ s.phase = .idle ∧ s.cmds = [0x2000]) ∧
    (∃ s t : State, s.rst = false ∧ step s = .next t ∧ s.phase = .idle ∧ s.grain = .command ∧ s.cmds = [0x3000]) ∧
    decodeCmd 0x2000 = .ok .begin ∧ decodeCmd 0x3000 = .ok .read :=
  ⟨⟨{ inPhase .gate 0 [] with clock := [5000] }, result (step { inPhase .gate 0 [] with clock := [5000] }), rfl, rfl, rfl⟩,
   ⟨{ ready 0 [] 500 with cmds := [0x2000] }, result (step { ready 0 [] 500 with cmds := [0x2000] }), rfl, rfl, rfl, rfl⟩,
   ⟨{ alternating with cmds := [0x3000] }, result (step { alternating with cmds := [0x3000] }), rfl, rfl, rfl, rfl, rfl⟩,
   by decide, by decide⟩

theorem witness_StepEventsFollowCriticalSection :
    (∃ s t : State, s.rst = false ∧ CritMatches s ∧ step s = .next t ∧ s.cmds = [0x3000]) ∧
    (∃ s t : State, s.rst = false ∧ CritMatches s ∧ step s = .next t ∧ s.phase = .capLow) :=
  ⟨⟨{ alternating with cmds := [0x3000] }, result (step { alternating with cmds := [0x3000] }), rfl, rfl, rfl, rfl⟩,
   ⟨{ inPhase .capLow 0 [.high] with crit := true }, result (step { inPhase .capLow 0 [.high] with crit := true }),
    rfl, rfl, rfl, rfl⟩⟩

theorem witness_StepWritesOnlyLow : ∃ s t : State, step s = .next t ∧ s.phase = .startLow :=
  ⟨inPhase .startLow 0 [], result (step (inPhase .startLow 0 [])), rfl, rfl⟩

theorem witness_OneResponsePerCommand :
    (∃ s t : State, s.rst = false ∧ step s = .next t ∧ t.rspValid = true ∧ s.phase = .respond) ∧
    (∃ s t : State, s.rst = false ∧ step s = .next t ∧ t.rspValid = true ∧ s.cmds = [0x0000]) ∧
    (∃ s t : State, s.rst = false ∧ step s = .next t ∧ t.rspValid = false) :=
  ⟨⟨inPhase .respond 0 [], result (step (inPhase .respond 0 [])), rfl, rfl, rfl, rfl⟩,
   ⟨{ ready 0 [] 0 with cmds := [0x0000] }, result (step { ready 0 [] 0 with cmds := [0x0000] }), rfl, rfl,
    by decide +kernel, rfl⟩,
   ⟨inPhase .clear 0 [], result (step (inPhase .clear 0 [])), rfl, rfl, rfl⟩⟩

theorem witness_PhaseRunRefinesCommand :
    ∃ s : State, s.rst = false ∧ s.phase = .idle ∧ s.grain = .phase ∧ s.cmds = 0x3000 :: [] ∧ s.bound = true ∧
      ackPasses s :=
  ⟨{ alternating with grain := .phase, cmds := [0x3000] }, rfl, rfl, rfl, rfl, rfl, alternating_ackPasses⟩

/-- The frame of program P1 with `MAXC` = 2: every LOW count 0, every HIGH count the bit. -/
theorem witness_ScriptedExchangeReadsFrame :
    ∃ (s : State) (a0 a1 : Nat) (lo hi : Fin 40 → Nat) (rest : List Level),
      s.phase = .idle ∧ s.bound = true ∧ gate (nowOf s) s.lastMs = .fresh ∧ a0 < s.cfg.maxc ∧ a1 < s.cfg.maxc ∧
      (∀ i, lo i < s.cfg.maxc) ∧ (∀ i, hi i < s.cfg.maxc) ∧ s.line = frameScript a0 a1 lo hi ++ rest ∧
      (∀ i, wireBit frameP1 i = decide (lo i < hi i)) ∧ checksumOk frameP1 = true := by
  refine ⟨fresh 1 (frameScript 1 0 (fun _ => 0) (fun i => if wireBit frameP1 i then 1 else 0) ++ [.high]), 1, 0,
    fun _ => 0, fun i => if wireBit frameP1 i then 1 else 0, [.high], rfl, rfl, by decide, by decide, by decide,
    fun i => ?_, fun i => ?_, rfl, fun i => ?_, by decide⟩
  · exact Nat.zero_lt_two
  · show (if wireBit frameP1 i then 1 else 0) < 2
    split <;> omega
  · show _ = decide (0 < (if wireBit frameP1 i then 1 else 0))
    by_cases h : wireBit frameP1 i = true <;> simp [h]

end Sys2Proof.Tests
end

section
/-! SUPPORT. Proofs of statements about the state (10_state.md): what a step runs, the reset state, the binding of
the pin. -/

namespace Sys2Proof.Proofs

open Sys2Proof.Machine Sys2Proof.Safety

/-! ### What a step runs -/

/-- Settles O6: at the grain of commands by `step_command`, otherwise by `step_phase`. -/
theorem stepRunsFetchedInstruction : Obligations.StepRunsFetchedInstruction := by
  refine ⟨fun s w rest i hr hg hp hc hd => ?_, fun s i hr hn hd => ?_⟩
  · rw [step_command s w rest hr hg hp hc, hd]
  · have hi : phaseInstr s.phase = i := by simpa [Sys2Proof.decode] using hd
    rw [step_phase s hr hn, hi]

/-! ### The reset state -/

/-- Settles O50: `IDLE` with `CRIT` 0, `LAST_OK` 0 and the pin unset. -/
theorem invariantsHoldAtReset : Obligations.InvariantsHoldAtReset := by
  refine ⟨rfl, fun hok => ?_, fun hout => ?_, fun hopen => ?_, fun hidle => absurd rfl hidle⟩
  · cases hok
  · cases hout
  · cases hopen

/-! ### The binding of the pin -/

@[simp] theorem respondTo_bound (s : State) (c : Current) : (respondTo s c).bound = s.bound := rfl
@[simp] theorem respondTo_pin (s : State) (c : Current) : (respondTo s c).pin = s.pin := rfl

@[simp] theorem beginEffect_bound (s : State) : (beginEffect s).bound = s.bound := by simp [beginEffect]
@[simp] theorem beginEffect_pin (s : State) : (beginEffect s).pin = s.pin := by simp [beginEffect]

@[simp] theorem readFresh_bound (t : Word) (s : State) : (readFresh t s).bound = s.bound := by simp [readFresh]
@[simp] theorem readFresh_pin (t : Word) (s : State) : (readFresh t s).pin = s.pin := by simp [readFresh]

/-- Only a hardware reset and an accepted `CONSTRUCT` write `BOUND` or `PIN`, and a bound block accepts no `CONSTRUCT`
(R111). -/
theorem steps_keeps_binding {s t : State} (h : Steps s t) (hr : s.rst = false) (hb : s.bound = true) :
    t.bound = s.bound ∧ t.pin = s.pin := by
  cases h with
  | reset hr' => simp [hr'] at hr
  | construct w rest p _ _ _ _ _ hu => simp [hu] at hb
  | acceptConstruct w rest p _ _ _ _ _ hu => simp [hu] at hb
  | _ => simp

/-- Settles O51, by the cases of a step. -/
theorem stepKeepsBoundPin : Obligations.StepKeepsBoundPin := by
  intro s t hr hb h
  have hk := steps_keeps_binding (step_inv h) hr hb
  exact ⟨hk.1.trans hb, hk.2⟩

end Sys2Proof.Proofs
end

section
/-! SUPPORT. What the protocol exchange can see of the state: the configuration, the frame, the durations, the counters,
the pin's mode and level, the critical section, the line and the trace, and no element of the driver (R140). -/

namespace Sys2Proof.Proofs

open Sys2Proof.Machine Sys2Proof.Safety

/-- `c` with every element an exchange reads or writes taken from `s`. -/
def onto (s c : State) : State :=
  { c with cfg := s.cfg, frame := s.frame, dur := s.dur, cnt := s.cnt, idx := s.idx, crit := s.crit, mode := s.mode,
           drv := s.drv, line := s.line, lineDraws := s.lineDraws, trace := s.trace }

@[simp] theorem onto_dur (s c : State) : (onto s c).dur = s.dur := rfl
@[simp] theorem critExit_onto (s c : State) : (onto s c).critExit = onto s.critExit c := rfl

/-- `r` sees and moves only what an exchange does: whatever state carries those elements, the result is the same and the
rest of that state stays. -/
def Blind (r : State → Bool × State) : Prop := ∀ s c : State, r (onto s c) = ((r s).1, onto (r s).2 c)

/-- The same for an operation without a result. -/
def BlindOp (f : State → State) : Prop := ∀ s c : State, f (onto s c) = onto (f s) c

theorem Blind.comp {r : State → Bool × State} {f : State → State} (hr : Blind r) (hf : BlindOp f) :
    Blind (fun s => r (f s)) := by
  intro s c
  show r (f (onto s c)) = _
  rw [hf, hr]

theorem Blind.eq_of_onto {r : State → Bool × State} (hr : Blind r) {s t : State} (h : onto s t = t) :
    r t = ((r s).1, onto (r s).2 t) := by
  rw [← hr s t, h]

/-- A blind exchange leaves the driver's elements alone. -/
theorem Blind.frame {r : State → Bool × State} (hr : Blind r) (s : State) : (r s).2 = onto (r s).2 s :=
  congrArg Prod.snd (hr s s)

theorem BlindOp.frame {f : State → State} (hf : BlindOp f) (s : State) : f s = onto (f s) s := hf s s

/-! ### The parts of the exchange are blind -/

@[simp] theorem expect_onto (level : Level) (s c : State) :
    expect level (onto s c) = ((expect level s).1, onto (expect level s).2 c) := by
  obtain ⟨hval, hstate⟩ := expect_congr level s (onto s c) rfl rfl rfl rfl
  rw [← Prod.eta (expect level (onto s c)), hval, hstate, expect_same level s]
  rfl

theorem blindOp_captureLow (i : Fin 40) : BlindOp (captureLow · i) := by
  intro s c
  simp only [captureLow, expect_onto]; rfl

theorem blindOp_captureHigh (i : Fin 40) : BlindOp (captureHigh · i) := by
  intro s c
  simp only [captureHigh, expect_onto]; rfl

theorem blindOp_captureBit (i : Fin 40) : BlindOp (captureBit · i) := fun s c =>
  (congrArg (captureHigh · i) (blindOp_captureLow i s c)).trans (blindOp_captureHigh i (captureLow s i) c)

theorem blindOp_captureFold (is : List (Fin 40)) : BlindOp (is.foldl captureBit) := by
  intro s c
  induction is generalizing s with
  | nil => rfl
  | cons i is ih =>
    calc (i :: is).foldl captureBit (onto s c) = is.foldl captureBit (captureBit (onto s c) i) := rfl
      _ = is.foldl captureBit (onto (captureBit s i) c) := congrArg (is.foldl captureBit) (blindOp_captureBit i s c)
      _ = onto (is.foldl captureBit (captureBit s i)) c := ih (captureBit s i)

theorem blind_ack : Blind Machine.ack := by
  intro s c
  simp only [Machine.ack, expect_onto]
  split
  · rfl
  · split <;> rfl

/-- Step e for the bits `is` only; `CAPTURE` is this for all forty (R145). -/
def captureBits (is : List (Fin 40)) (s : State) : State := { is.foldl captureBit s with idx := 0 }

theorem capture_eq_captureBits : capture = captureBits bitIndices := rfl

theorem blindOp_captureBits (is : List (Fin 40)) : BlindOp (captureBits is) := fun s c =>
  congrArg (fun t : State => { t with idx := 0 }) (blindOp_captureFold is s c)

theorem blind_decodeStep : Blind decodeStep := by
  intro s c
  cases h : anyTimeout s.dur with
  | true => rw [decodeStep_fail s h, decodeStep_fail (onto s c) h]
  | false => rw [decodeStep_ok s h, decodeStep_ok (onto s c) h]; rfl

/-- Steps f to i, which follow the capture: the section is closed, the bits are decoded and checked (R146 to R149). -/
def checkRest (s : State) : Bool × State :=
  let d := decodeStep s.critExit
  if d.1 then (checksumOk d.2.frame, d.2) else (false, d.2)

theorem blind_checkRest : Blind checkRest := by
  intro s c
  simp only [checkRest, critExit_onto, blind_decodeStep _ c]
  obtain ⟨ok, t⟩ := decodeStep s.critExit
  cases ok <;> rfl

theorem xferRest_eq (s : State) :
    xferRest s = if (Machine.ack s).1 then checkRest (captureBits bitIndices (Machine.ack s).2)
      else (false, (Machine.ack s).2.critExit) := by
  rw [xferRest, capture_eq_captureBits]; rfl

theorem blind_xferRest : Blind xferRest := by
  intro s c
  simp only [xferRest_eq, blind_ack s c, blindOp_captureBits _ _ c, blind_checkRest _ c]
  split <;> rfl

theorem blindOp_opened : BlindOp opened := fun _ _ => rfl

theorem blind_xfer : Blind xfer := by
  have hx : xfer = fun s => xferRest (opened s) := funext xfer_eq
  rw [hx]
  exact blind_xferRest.comp blindOp_opened

end Sys2Proof.Proofs
end

section
/-! SUPPORT. The block computes nothing from the value of `PIN` (R21): every operation commutes with a change of it, and
those that write it forget the old value. -/

namespace Sys2Proof.Proofs

open Sys2Proof.Machine Sys2Proof.Safety

/-- `s` with another value of `PIN`. -/
def repin (p : BitVec 8) (s : State) : State := { s with pin := p }

@[simp] theorem repin_bound (p : BitVec 8) (s : State) : (repin p s).bound = s.bound := rfl
@[simp] theorem repin_lastMs (p : BitVec 8) (s : State) : (repin p s).lastMs = s.lastMs := rfl
@[simp] theorem repin_dur (p : BitVec 8) (s : State) : (repin p s).dur = s.dur := rfl
@[simp] theorem repin_phase (p : BitVec 8) (s : State) : (repin p s).phase = s.phase := rfl
@[simp] theorem repin_idx (p : BitVec 8) (s : State) : (repin p s).idx = s.idx := rfl
@[simp] theorem repin_grain (p : BitVec 8) (s : State) : (repin p s).grain = s.grain := rfl
@[simp] theorem repin_rst (p : BitVec 8) (s : State) : (repin p s).rst = s.rst := rfl
@[simp] theorem repin_cmds (p : BitVec 8) (s : State) : (repin p s).cmds = s.cmds := rfl

/-- Two outcomes are next states that differ in `PIN` at most. -/
def SameButPin (o o' : Out) : Prop := ∃ t q, o = .next t ∧ o' = .next (repin q t)

theorem sameButPin_next {t u : State} {q : BitVec 8} (h : u = repin q t) : SameButPin (.next t) (.next u) :=
  ⟨t, q, rfl, by rw [h]⟩

/-! ### The operations commute with `repin` -/

/-- An exchange cannot see `PIN`. -/
theorem Blind.map_repin {r : State → Bool × State} (hr : Blind r) (p : BitVec 8) (s : State) :
    r (repin p s) = ((r s).1, repin p (r s).2) := by
  calc r (repin p s) = ((r s).1, onto (r s).2 (repin p s)) := hr s (repin p s)
    _ = ((r s).1, repin p (onto (r s).2 s)) := rfl
    _ = ((r s).1, repin p (r s).2) := by rw [← hr.frame s]

theorem BlindOp.map_repin {f : State → State} (hf : BlindOp f) (p : BitVec 8) (s : State) :
    f (repin p s) = repin p (f s) := by
  calc f (repin p s) = onto (f s) (repin p s) := hf s (repin p s)
    _ = repin p (onto (f s) s) := rfl
    _ = repin p (f s) := by rw [← hf.frame s]

@[simp] theorem expect_repin (level : Level) (p : BitVec 8) (s : State) :
    expect level (repin p s) = ((expect level s).1, repin p (expect level s).2) := by
  have h := expect_onto level s (repin p s)
  rw [expect_same level s] at h ⊢
  exact h

@[simp] theorem captureLow_repin (p : BitVec 8) (s : State) (i : Fin 40) :
    captureLow (repin p s) i = repin p (captureLow s i) := (blindOp_captureLow i).map_repin p s

@[simp] theorem captureHigh_repin (p : BitVec 8) (s : State) (i : Fin 40) :
    captureHigh (repin p s) i = repin p (captureHigh s i) := (blindOp_captureHigh i).map_repin p s

@[simp] theorem nowMs_repin (p : BitVec 8) (s : State) : (repin p s).nowMs = (s.nowMs.1, repin p s.nowMs.2) := by
  rw [State.nowMs_eq, State.nowMs_eq]; rfl

theorem beginEffect_repin (p : BitVec 8) (s : State) : beginEffect (repin p s) = repin p (beginEffect s) := by
  have h : (repin p s).pinMode .inputPullup = repin p (s.pinMode .inputPullup) := rfl
  simp only [beginEffect, h, nowMs_repin]; rfl

theorem readFresh_repin (t : Word) (p : BitVec 8) (s : State) : readFresh t (repin p s) = repin p (readFresh t s) := by
  have h : ({ repin p s with lastMs := t } : State) = repin p { s with lastMs := t } := rfl
  simp only [readFresh, h, blind_xfer.map_repin p]; rfl

theorem readEffect_repin (p : BitVec 8) (s : State) : readEffect (repin p s) = repin p (readEffect s) := by
  simp only [readEffect, nowMs_repin, repin_lastMs]
  cases gate s.nowMs.1 s.lastMs with
  | cached => rfl
  | fresh => exact readFresh_repin _ p _

theorem respondTo_repin (c : Current) (p : BitVec 8) (s : State) :
    respondTo (repin p s) c = repin p (respondTo s c) := by
  cases c <;> rfl

/-! ### The instructions -/

/-- A command that may run only in `IDLE` and bound, performed whole (R110). -/
theorem whenIdle_whenBound_repin (p : BitVec 8) (s : State) (run : State → State)
    (hrun : run (repin p s) = repin p (run s)) :
    SameButPin (.next (whenIdle s fun s => whenBound s run))
      (.next (whenIdle (repin p s) fun s => whenBound s run)) := by
  apply sameButPin_next (q := p)
  simp only [whenIdle, whenBound]
  rw [repin_phase, repin_bound]
  split
  · split
    · exact hrun
    · rfl
  · rfl

theorem execConstruct_repin (pin p : BitVec 8) (s : State) :
    SameButPin (execConstruct pin s) (execConstruct pin (repin p s)) := by
  simp only [execConstruct, whenIdle]
  rw [repin_phase, repin_bound]
  split
  · split
    · exact sameButPin_next (q := p) rfl
    · exact sameButPin_next (q := pin) rfl
  · exact sameButPin_next (q := p) rfl

theorem acceptWord_repin (w : CmdWord) (p : BitVec 8) (s : State) :
    ∃ q, acceptWord (repin p s) w = repin q (acceptWord s w) := by
  unfold acceptWord
  cases hd : decodeCmd w with
  | error e => exact ⟨p, rfl⟩
  | ok i =>
    rcases decodeCmd_cases hd with ⟨pin, rfl⟩ | rfl | rfl | rfl <;>
      simp only [acceptInstr] <;> rw [repin_bound] <;> split
    · exact ⟨p, rfl⟩
    · exact ⟨pin, rfl⟩
    · exact ⟨p, by rw [beginEffect_repin]; rfl⟩
    all_goals exact ⟨p, rfl⟩

theorem execIdle_repin (p : BitVec 8) (s : State) : SameButPin (execIdle s) (execIdle (repin p s)) := by
  simp only [execIdle, repin_cmds]
  cases s.cmds with
  | nil => exact sameButPin_next (q := p) rfl
  | cons w rest =>
    obtain ⟨q, h⟩ := acceptWord_repin w p { s with cmds := rest }
    exact sameButPin_next h

theorem execGate_repin (p : BitVec 8) (s : State) : SameButPin (execGate s) (execGate (repin p s)) := by
  apply sameButPin_next (q := p)
  simp only [nowMs_repin, repin_lastMs]
  cases gate s.nowMs.1 s.lastMs <;> rfl

theorem execAckLow_repin (p : BitVec 8) (s : State) : SameButPin (execAckLow s) (execAckLow (repin p s)) := by
  apply sameButPin_next (q := p)
  simp only [expect_repin]
  split <;> rfl

theorem execAckHigh_repin (p : BitVec 8) (s : State) : SameButPin (execAckHigh s) (execAckHigh (repin p s)) := by
  apply sameButPin_next (q := p)
  simp only [expect_repin]
  split <;> rfl

theorem execCapHigh_repin (p : BitVec 8) (s : State) : SameButPin (execCapHigh s) (execCapHigh (repin p s)) := by
  apply sameButPin_next (q := p)
  by_cases h : s.idx.val < 39 <;> simp only [repin_idx, captureHigh_repin, h, ↓reduceDIte] <;> rfl

theorem execDecode_repin (p : BitVec 8) (s : State) : SameButPin (execDecode s) (execDecode (repin p s)) := by
  apply sameButPin_next (q := p)
  rw [repin_dur]
  split
  · rfl
  · by_cases h : s.idx.val < 39 <;> simp only [repin_idx, h, ↓reduceDIte] <;> rfl

/-- Every instruction takes states that differ in `PIN` at most to states that do. -/
theorem exec_repin (i : Instr) (p : BitVec 8) (s : State) : SameButPin (exec i s) (exec i (repin p s)) := by
  cases i with
  | construct pin => exact execConstruct_repin pin p s
  | begin => exact whenIdle_whenBound_repin p s _ (by rw [beginEffect_repin, respondTo_repin])
  | read => exact whenIdle_whenBound_repin p s _ (by rw [readEffect_repin, respondTo_repin])
  | getspecs => exact whenIdle_whenBound_repin p s _ (respondTo_repin _ p s)
  | idle => exact execIdle_repin p s
  | gate => exact execGate_repin p s
  | ackLow => exact execAckLow_repin p s
  | ackHigh => exact execAckHigh_repin p s
  | capLow => exact sameButPin_next (q := p) (congrArg (goto · .capHigh) (captureLow_repin p s s.idx))
  | capHigh => exact execCapHigh_repin p s
  | decode => exact execDecode_repin p s
  | respond => exact sameButPin_next (respondTo_repin s.cur p s)
  | xfer => exact sameButPin_next (q := p) (by rw [blind_xfer.map_repin p]; rfl)
  | expect level => exact sameButPin_next (q := p) (by rw [expect_repin]; rfl)
  | clear | startPre | startLow | startRel | csum | ctemp | chum | mkreading => exact sameButPin_next (q := p) rfl

/-- What is due does not depend on `PIN`. -/
theorem fetch_repin (p : BitVec 8) (s : State) : fetch (repin p s) = ((fetch s).1, repin p (fetch s).2) := by
  simp only [fetch, repin_grain, repin_phase, repin_cmds]
  split <;> rfl

theorem step_repin (p : BitVec 8) (s : State) : SameButPin (step s) (step (repin p s)) := by
  rw [step, step, fetch_repin, repin_rst]
  split
  · exact sameButPin_next (q := 0) rfl
  · obtain ⟨d, s'⟩ := fetch s
    cases d with
    | ok i => exact exec_repin i p s'
    | error e => exact sameButPin_next (q := p) rfl

/-- Settles O52, by `step_repin`. -/
theorem pinValueIsIrrelevant : Obligations.PinValueIsIrrelevant := by
  intro s t p h
  obtain ⟨t', q, ht, hu⟩ := step_repin p s
  obtain rfl : t = t' := Host.Outcome.next.inj (h.symm.trans ht)
  exact ⟨repin q t, hu, rfl⟩

end Sys2Proof.Proofs
end

section
/-! SUPPORT. The phase machine refines the command rules (R27, R153). `finish` performs the rest of the command in
progress whole; every phase keeps it and comes nearer to `IDLE`. -/

namespace Sys2Proof.Proofs

open Sys2Proof.Machine Sys2Proof.Safety

/-! ### The loops of the capture and of `DECODE`, from bit `IDX` on -/

theorem drop_bitIndices (i : Fin 40) : bitIndices.drop i.val = i :: bitIndices.drop (i.val + 1) := by
  have hi : i.val < bitIndices.length := by rw [bitIndices_length]; exact i.isLt
  rw [List.drop_eq_getElem_cons hi]
  simp [bitIndices]

theorem drop_bitIndices_last {i : Fin 40} (h : i.val = 39) : bitIndices.drop (i.val + 1) = [] := by
  rw [List.drop_eq_nil_iff, bitIndices_length]; omega

theorem captureLow_setIdx (s : State) (i j : Fin 40) :
    captureLow { s with idx := j } i = { captureLow s i with idx := j } := by
  obtain ⟨hval, hstate⟩ := expect_congr .low s { s with idx := j } rfl rfl rfl rfl
  rw [captureLow, captureLow, hval, hstate, expect_same .low s]

theorem captureHigh_setIdx (s : State) (i j : Fin 40) :
    captureHigh { s with idx := j } i = { captureHigh s i with idx := j } := by
  obtain ⟨hval, hstate⟩ := expect_congr .high s { s with idx := j } rfl rfl rfl rfl
  rw [captureHigh, captureHigh, hval, hstate, expect_same .high s]

/-- The capture does not look at `IDX`, and leaves it 0. -/
theorem captureBits_setIdx (is : List (Fin 40)) (s : State) (j : Fin 40) :
    captureBits is { s with idx := j } = captureBits is s := by
  induction is generalizing s with
  | nil => rfl
  | cons i is ih =>
    have h : captureBit { s with idx := j } i = { captureBit s i with idx := j } := by
      rw [captureBit, captureLow_setIdx, captureHigh_setIdx]; rfl
    calc captureBits (i :: is) { s with idx := j } = captureBits is (captureBit { s with idx := j } i) := rfl
      _ = captureBits is (captureBit s i) := by rw [h, ih]

/-! ### What is left of an exchange, phase by phase -/

/-- The frame with the bits from `k` on packed. -/
def frameFrom (k : Nat) (s : State) : Vector Byte 5 := (bitIndices.drop k).foldl (decodeBit s.dur) s.frame

/-- What is left in `DECODE` when `IDX` is `k` (R147 to R149). -/
def decodeRest (k : Nat) (s : State) : Bool × State :=
  if anyTimeout s.dur then (false, s)
  else (checksumOk (frameFrom k s), { s with frame := frameFrom k s, idx := 39 })

/-- What is left in `CSUM` (R149). -/
def csumRest (s : State) : Bool × State := (checksumOk s.frame, s)

/-- What is left in `CAP_LOW` when `IDX` is `k` (R145, R146). -/
def captureRest (k : Nat) (s : State) : Bool × State := checkRest (captureBits (bitIndices.drop k) s)

/-- What is left in `CAP_HIGH` when `IDX` is `i`. -/
def captureHighRest (i : Fin 40) (s : State) : Bool × State := captureRest (i.val + 1) (captureHigh s i)

/-- What is left in `ACK_HIGH` (R144). -/
def ackHighRest (s : State) : Bool × State :=
  if (expect .high s).1 = Config.timeout then (false, (expect .high s).2.critExit)
  else captureRest 0 (expect .high s).2

/-- What is left in `START_REL`, the release and all that follows (R142, R143). -/
def startRelRest (s : State) : Bool × State := xferRest (startRelPart s).critEnter

/-- What is left in `START_LOW`. -/
def startLowRest (s : State) : Bool × State := startRelRest (startLowPart s)

/-- What is left in `START_PRE`. -/
def startPreRest (s : State) : Bool × State := startLowRest (startPrePart s)

theorem xfer_eq_startPreRest (s : State) : xfer s = startPreRest (clearFrame s) := rfl

theorem xferRest_eq_ackHighRest (s : State) :
    xferRest s = if (expect .low s).1 = Config.timeout then (false, (expect .low s).2.critExit)
      else ackHighRest (expect .low s).2 := by
  rw [xferRest_eq, Machine.ack, ackHighRest, captureRest, List.drop_zero]
  by_cases hlow : (expect .low s).1 = Config.timeout
  · simp [hlow]
  · by_cases hhigh : (expect .high (expect .low s).2).1 = Config.timeout <;> simp [hlow, hhigh]

theorem captureRest_eq (i : Fin 40) (s : State) : captureRest i.val s = captureHighRest i (captureLow s i) := by
  rw [captureRest, drop_bitIndices]; rfl

theorem captureRest_setIdx (k : Nat) (s : State) (j : Fin 40) :
    captureRest k { s with idx := j } = captureRest k s := by
  rw [captureRest, captureBits_setIdx]; rfl

theorem frameFrom_eq (i : Fin 40) (s : State) :
    frameFrom i.val s = frameFrom (i.val + 1) { s with frame := decodeBit s.dur s.frame i } := by
  rw [frameFrom, drop_bitIndices]; rfl

theorem decodeRest_eq (s : State) (h : anyTimeout s.dur = false) :
    decodeRest s.idx.val s = decodeRest (s.idx.val + 1) (packCurrent s) := by
  have hp : anyTimeout (packCurrent s).dur = false := h
  rw [decodeRest, decodeRest, h, hp, frameFrom_eq]; rfl

theorem decodeRest_setIdx (k : Nat) (s : State) (j : Fin 40) (h : anyTimeout s.dur = false) :
    decodeRest k { s with idx := j } = decodeRest k s := by
  rw [decodeRest, decodeRest, h]; rfl

theorem checkRest_eq (s : State) : checkRest s = decodeRest 0 s.critExit := by
  cases h : anyTimeout s.critExit.dur with
  | true => rw [checkRest, decodeRest, decodeStep_fail _ h, h]; rfl
  | false => rw [checkRest, decodeRest, decodeStep_ok _ h, h]; rfl

theorem captureHighRest_last {i : Fin 40} (h : i.val = 39) (s : State) :
    captureHighRest i s = decodeRest 0 { (captureHigh s i).critExit with idx := 0 } := by
  rw [captureHighRest, captureRest, drop_bitIndices_last h, checkRest_eq]; rfl

theorem decodeRest_end (k : Nat) (s : State) (h : anyTimeout s.dur = false) (hk : bitIndices.drop k = [])
    (hi : s.idx = 39) : decodeRest k s = csumRest s := by
  have hf : frameFrom k s = s.frame := by rw [frameFrom, hk]; rfl
  rw [decodeRest, h, hf, ← hi]; rfl

/-! ### What is left is blind -/

theorem blind_decodeRest (k : Nat) : Blind (decodeRest k) := by
  intro s c
  cases h : anyTimeout s.dur <;> rw [decodeRest, decodeRest, onto_dur, h] <;> rfl

theorem blind_csumRest : Blind csumRest := fun _ _ => rfl

theorem blind_captureRest (k : Nat) : Blind (captureRest k) := blind_checkRest.comp (blindOp_captureBits _)

theorem blind_captureHighRest (i : Fin 40) : Blind (captureHighRest i) :=
  (blind_captureRest _).comp (blindOp_captureHigh i)

theorem blind_ackHighRest : Blind ackHighRest := by
  intro s c
  simp only [ackHighRest, expect_onto, blind_captureRest _ _ c]
  split <;> rfl

theorem blind_startRelRest : Blind startRelRest := blind_xferRest.comp fun _ _ => rfl
theorem blind_startLowRest : Blind startLowRest := blind_startRelRest.comp fun _ _ => rfl
theorem blind_startPreRest : Blind startPreRest := blind_startLowRest.comp fun _ _ => rfl

/-- What is left of an exchange in phase `p` at `IDX` = `i`; before its parts begin, all of it. -/
def exchangeRest (p : Phase) (i : Fin 40) : State → Bool × State :=
  match p with
  | .startPre => startPreRest
  | .startLow => startLowRest
  | .startRel => startRelRest
  | .ackLow => xferRest
  | .ackHigh => ackHighRest
  | .capLow => captureRest i.val
  | .capHigh => captureHighRest i
  | .decode => decodeRest i.val
  | .csum => csumRest
  | _ => xfer

theorem blind_exchangeRest (p : Phase) (i : Fin 40) : Blind (exchangeRest p i) := by
  cases p with
  | startPre => exact blind_startPreRest
  | startLow => exact blind_startLowRest
  | startRel => exact blind_startRelRest
  | ackLow => exact blind_xferRest
  | ackHigh => exact blind_ackHighRest
  | capLow => exact blind_captureRest _
  | capHigh => exact blind_captureHighRest i
  | decode => exact blind_decodeRest _
  | csum => exact blind_csumRest
  | idle | gate | clear | respond => exact blind_xfer

/-! ### The rest of a command, performed whole -/

/-- The exchange `r`, the record of its result in `LAST_OK`, and the response of the command in progress (R115,
R153). -/
def conclude (r : State → Bool × State) (s : State) : State := respondTo { (r s).2 with lastOk := (r s).1 } s.cur

theorem conclude_of_eq {r : State → Bool × State} {s u : State} {ok : Bool} (h : r s = (ok, u)) :
    conclude r s = respondTo { u with lastOk := ok } s.cur := by
  rw [conclude, h]

/-- Neither the phase nor `rsp_valid` in which an exchange begins is left at its end. -/
theorem Blind.conclude_relabel {r : State → Bool × State} (hr : Blind r) (s : State) (p : Phase) (v : Bool) :
    conclude r { s with phase := p, rspValid := v } = conclude r s := by
  rw [conclude_of_eq (hr.eq_of_onto (s := s) (t := { s with phase := p, rspValid := v }) rfl),
    conclude_of_eq (hr.eq_of_onto (s := s) (t := s) rfl)]
  rfl

/-- The phases of an exchange. -/
def inExchange : Phase → Bool
  | .idle | .gate | .respond => false
  | _ => true

/-- The state in which the command in progress will end: what is left of it, performed whole. -/
def finish (s : State) : State :=
  match s.phase with
  | .idle => s
  | .gate => respondTo (readEffect s) s.cur
  | .respond => respondTo s s.cur
  | p => conclude (exchangeRest p s.idx) s

theorem finish_of_inExchange {s : State} {p : Phase} (hs : s.phase = p) (hp : inExchange p = true) :
    finish s = conclude (exchangeRest p s.idx) s := by
  subst hs
  unfold finish
  split <;> simp_all [inExchange]

/-- A phase of an exchange that goes on to another one. -/
theorem finish_goto_eq {s u : State} {p p' : Phase} (hs : s.phase = p) (hp : inExchange p = true)
    (hp' : inExchange p' = true) (hc : u.cur = s.cur)
    (h : exchangeRest p s.idx (quiet s) = exchangeRest p' u.idx u) : finish (goto u p') = finish s :=
  calc finish (goto u p') = conclude (exchangeRest p' u.idx) (goto u p') := finish_of_inExchange rfl hp'
    _ = conclude (exchangeRest p' u.idx) u := (blind_exchangeRest p' u.idx).conclude_relabel u p' u.rspValid
    _ = conclude (exchangeRest p s.idx) (quiet s) := by rw [conclude, conclude, h, hc]
    _ = conclude (exchangeRest p s.idx) s := (blind_exchangeRest p s.idx).conclude_relabel s s.phase false
    _ = finish s := (finish_of_inExchange hs hp).symm

/-- A phase of an exchange that ends it with the result `ok`. -/
theorem finish_respond_eq {s u : State} {p : Phase} {ok : Bool} (hs : s.phase = p) (hp : inExchange p = true)
    (hc : u.cur = s.cur) (h : exchangeRest p s.idx (quiet s) = (ok, u)) :
    finish (goto { u with lastOk := ok } .respond) = finish s :=
  calc finish (goto { u with lastOk := ok } .respond) = respondTo { u with lastOk := ok } u.cur := rfl
    _ = conclude (exchangeRest p s.idx) (quiet s) := by rw [conclude_of_eq h, hc]
    _ = conclude (exchangeRest p s.idx) s := (blind_exchangeRest p s.idx).conclude_relabel s s.phase false
    _ = finish s := (finish_of_inExchange hs hp).symm

theorem finish_of_respond {s : State} (hp : s.phase = .respond) : finish s = respondTo s s.cur := by
  unfold finish; rw [hp]

theorem finish_of_gate {s : State} (hp : s.phase = .gate) : finish s = respondTo (readEffect s) s.cur := by
  unfold finish; rw [hp]

theorem readEffect_cached {s : State} (h : gate (nowOf s) s.lastMs = .cached) : readEffect s = sampled s := by
  simp only [readEffect, State.nowMs_eq, h]

theorem readEffect_fresh {s : State} (h : gate (nowOf s) s.lastMs = .fresh) :
    readEffect s = readFresh (nowOf s) (sampled s) := by
  simp only [readEffect, State.nowMs_eq, h]

theorem respondTo_readFresh (t : Word) (s : State) :
    respondTo (readFresh t s) s.cur = conclude xfer { s with lastMs := t } := rfl

/-- Phase `GATE` on the cached path (R114). -/
theorem finish_gateCached {s : State} (hp : s.phase = .gate) (hg : gate (nowOf s) s.lastMs = .cached) :
    finish (goto (quiet s).nowMs.2 .respond) = finish s := by
  rw [finish_of_gate hp, readEffect_cached hg, State.nowMs_eq]; rfl

/-- Phase `GATE` on the fresh path (R115). -/
theorem finish_gateFresh {s : State} (hp : s.phase = .gate) (hg : gate (nowOf s) s.lastMs = .fresh) :
    finish (goto { (quiet s).nowMs.2 with lastMs := nowOf s } .clear) = finish s := by
  have h := respondTo_readFresh (nowOf s) (sampled s)
  rw [finish_of_gate hp, readEffect_fresh hg, State.nowMs_eq, show s.cur = (sampled s).cur from rfl, h]
  exact blind_xfer.conclude_relabel { sampled s with lastMs := nowOf s } .clear false

/-- The most steps the sequencer needs to get back to `IDLE` (R153). -/
def remaining (s : State) : Nat :=
  match s.phase with
  | .idle => 0
  | .gate => 129
  | .clear => 128
  | .startPre => 127
  | .startLow => 126
  | .startRel => 125
  | .ackLow => 124
  | .ackHigh => 123
  | .capLow => 122 - 2 * s.idx.val
  | .capHigh => 121 - 2 * s.idx.val
  | .decode => 42 - s.idx.val
  | .csum => 2
  | .respond => 1

theorem steps_rst {s t : State} (h : Steps s t) (hr : ¬ s.rst = true) : t.rst = s.rst := by
  cases h with
  | reset => contradiction
  | _ => simp [respondTo, beginEffect, readFresh, bindPin]

/-- Every step outside `IDLE` keeps where the command will end, and comes nearer to it (R153). -/
theorem steps_advances {s t : State} (h : Steps s t) (hr : ¬ s.rst = true) (hi : s.phase ≠ .idle) :
    finish t = finish s ∧ remaining t < remaining s := by
  cases h with
  | gateCached _ hp hg => exact ⟨finish_gateCached hp hg, by simp [remaining, hp]⟩
  | gateFresh _ hp hg => exact ⟨finish_gateFresh hp hg, by simp [remaining, hp]⟩
  | clear _ hp =>
    refine ⟨finish_goto_eq hp rfl rfl (by simp) ?_, by simp [remaining, hp]⟩
    simp only [exchangeRest, xfer_eq_startPreRest]
  | startPre _ hp =>
    refine ⟨finish_goto_eq hp rfl rfl (by simp) ?_, by simp [remaining, hp]⟩
    simp only [exchangeRest, startPreRest]
  | startLow _ hp =>
    refine ⟨finish_goto_eq hp rfl rfl (by simp) ?_, by simp [remaining, hp]⟩
    simp only [exchangeRest, startLowRest]
  | startRel _ hp =>
    refine ⟨finish_goto_eq hp rfl rfl (by simp) ?_, by simp [remaining, hp]⟩
    simp only [exchangeRest, startRelRest]
  | ackLowFail _ hp hx =>
    refine ⟨finish_respond_eq hp rfl (by simp) ?_, by simp [remaining, hp]⟩
    exact (xferRest_eq_ackHighRest _).trans (if_pos hx)
  | ackLowPass _ hp hx =>
    refine ⟨finish_goto_eq hp rfl rfl (by simp) ?_, by simp [remaining, hp]⟩
    exact (xferRest_eq_ackHighRest _).trans (if_neg hx)
  | ackHighFail _ hp hx =>
    refine ⟨finish_respond_eq hp rfl (by simp) (if_pos hx), by simp [remaining, hp]⟩
  | ackHighPass _ hp hx =>
    refine ⟨finish_goto_eq hp rfl rfl (by simp) ?_, by simp [remaining, hp]⟩
    exact (if_neg hx).trans (captureRest_setIdx 0 _ 0).symm
  | capLow _ hp =>
    refine ⟨finish_goto_eq hp rfl rfl (by simp) ?_, by simp [remaining, hp]; omega⟩
    rw [captureLow_idx]
    exact captureRest_eq s.idx (quiet s)
  | capHighMore hlt _ hp =>
    refine ⟨finish_goto_eq hp rfl rfl (by simp) ?_, by simp [remaining, hp]; omega⟩
    exact (captureRest_setIdx _ _ _).symm
  | capHighLast _ hp hlast =>
    refine ⟨finish_goto_eq hp rfl rfl (by simp) ?_, by simp [remaining, hp]; omega⟩
    exact captureHighRest_last hlast (quiet s)
  | decodeFail _ hp hx =>
    refine ⟨finish_respond_eq hp rfl rfl (if_pos hx), by simp [remaining, hp]; omega⟩
  | decodeMore hlt _ hp hx =>
    refine ⟨finish_goto_eq hp rfl rfl rfl ?_, by simp [remaining, hp]; omega⟩
    exact (decodeRest_eq (quiet s) hx).trans (decodeRest_setIdx _ (packCurrent (quiet s)) _ hx).symm
  | decodeLast _ hp hx hlast =>
    refine ⟨finish_goto_eq hp rfl rfl rfl ?_, by simp [remaining, hp]; omega⟩
    exact (decodeRest_eq (quiet s) hx).trans (decodeRest_end _ _ hx (drop_bitIndices_last hlast) (Fin.ext hlast))
  | csum _ hp => exact ⟨finish_respond_eq hp rfl rfl rfl, by simp [remaining, hp]⟩
  | respond _ hp =>
    refine ⟨?_, by simp [remaining, hp, respondTo]⟩
    rw [finish_of_respond hp]; rfl
  | _ => contradiction

/-! ### The run of the phases -/

theorem step_answers_outside_idle {s : State} (hr : s.rst = false) (hi : s.phase ≠ .idle) :
    ∃ t, step s = .next t := by
  rw [step_phase s hr (.inr (.inl hi))]
  cases hp : s.phase with
  | idle => exact absurd hp hi
  | _ => exact ⟨_, rfl⟩

theorem finish_of_idle {s : State} (hp : s.phase = .idle) : finish s = s := by
  unfold finish; rw [hp]

theorem run_succ {m : Nat} {s t : State} (h : step s = .next t) :
    Host.Core.run core (m + 1) s = Host.Core.run core m t := by
  have hs : core.step s = .next t := h
  simp only [Host.Core.run, hs]

/-- Running the phases ends in `finish`, within the bound that `remaining` sets. -/
theorem run_reaches_finish (s : State) (hr : s.rst = false) :
    ∃ m ≤ remaining s, Host.Core.run core m s = .next (finish s) := by
  induction hn : remaining s using Nat.strong_induction_on generalizing s with
  | _ n ih =>
    by_cases hi : s.phase = .idle
    · exact ⟨0, Nat.zero_le n, by rw [finish_of_idle hi]; rfl⟩
    · obtain ⟨t, ht⟩ := step_answers_outside_idle hr hi
      have hr' : ¬ s.rst = true := by simp [hr]
      obtain ⟨hfinish, hlt⟩ := steps_advances (step_inv ht) hr' hi
      obtain ⟨m, hm, hrun⟩ := ih _ (hn ▸ hlt) t ((steps_rst (step_inv ht) hr').trans hr) rfl
      exact ⟨m + 1, by omega, by rw [run_succ ht, hrun, hfinish]⟩

/-! ### Acceptance at the two grains -/

theorem acceptWord_next (s : State) (w : CmdWord) :
    ((acceptWord s w).phase = .gate ∨ (acceptWord s w).phase = .respond) ∧ (acceptWord s w).rst = s.rst := by
  unfold acceptWord
  cases hd : decodeCmd w with
  | error e => exact ⟨.inr rfl, rfl⟩
  | ok i =>
    rcases decodeCmd_cases hd with ⟨pin, rfl⟩ | rfl | rfl | rfl <;> simp only [acceptInstr] <;> split <;>
      simp [bindPin, beginEffect]

theorem finish_responds {s : State} (hp : s.phase = .gate ∨ s.phase = .respond) :
    (finish s).phase = .idle ∧ (finish s).rspValid = true ∧ remaining s ≤ 129 := by
  rcases hp with hp | hp
  · rw [finish_of_gate hp]; exact ⟨rfl, rfl, by simp [remaining, hp]⟩
  · rw [finish_of_respond hp]; exact ⟨rfl, rfl, by simp [remaining, hp]⟩

theorem readFresh_of_onto (t : Word) {s u : State} (h : onto s u = u) :
    readFresh t u = { onto (xfer s).2 u with lastMs := t, lastOk := (xfer s).1 } := by
  have hu : onto s { u with lastMs := t } = { u with lastMs := t } :=
    congrArg (fun v : State => { v with lastMs := t }) h
  rw [readFresh, blind_xfer.eq_of_onto hu]; rfl

/-- `READ` does the same at both grains (R113 to R115, R153). -/
theorem respondTo_readEffect_relabel (s : State) (p : Phase) (c : Current) (g : Grain) :
    { respondTo (readEffect { s with phase := p, cur := c }) .read with grain := g }
      = respondTo (readEffect { s with grain := g }) .read := by
  cases hg : gate (nowOf s) s.lastMs with
  | cached =>
    rw [readEffect_cached (s := { s with phase := p, cur := c }) hg, readEffect_cached (s := { s with grain := g }) hg]
    rfl
  | fresh =>
    rw [readEffect_fresh (s := { s with phase := p, cur := c }) hg, readEffect_fresh (s := { s with grain := g }) hg,
      readFresh_of_onto _ (s := sampled s) (u := sampled { s with phase := p, cur := c }) rfl,
      readFresh_of_onto _ (s := sampled s) (u := sampled { s with grain := g }) rfl]
    rfl

theorem beginEffect_grain (s : State) (g : Grain) :
    beginEffect { s with grain := g } = { beginEffect s with grain := g } := by
  simp only [beginEffect, State.nowMs_eq]; rfl

theorem whenIdle_of_idle {s : State} (h : s.phase = .idle) (run : State → State) : whenIdle s run = run s := if_pos h

/-- A host command performed whole ends where its acceptance by phase `IDLE` leads (R110, R153). -/
theorem exec_eq_finish_acceptInstr {s : State} {w : CmdWord} {i : Instr} (hp : s.phase = .idle)
    (hd : decodeCmd w = .ok i) :
    exec i { s with grain := .command } = .next { finish (acceptInstr s i) with grain := .command } := by
  have hidle : ({ s with grain := .command } : State).phase = .idle := hp
  rcases decodeCmd_cases hd with ⟨pin, rfl⟩ | rfl | rfl | rfl <;>
    simp only [exec, execConstruct, execBegin, execRead, execGetspecs, whenIdle_of_idle hidle, whenBound,
      acceptInstr] <;>
    split
  · rfl
  · rfl
  · rw [beginEffect_grain]; rfl
  · rfl
  · rw [← respondTo_readEffect_relabel s .gate .read .command]; rfl
  · rfl
  · rfl
  · rfl

theorem step_command_eq_finish {s : State} {w : CmdWord} {rest : List CmdWord} (hr : s.rst = false)
    (hp : s.phase = .idle) (hc : s.cmds = w :: rest) :
    step { s with grain := .command } = .next { finish (acceptWord (taken s rest) w) with grain := .command } := by
  rw [step_command { s with grain := .command } w rest hr rfl hp hc]
  unfold acceptWord
  cases hd : decodeCmd w with
  | error e => rfl
  | ok i => exact exec_eq_finish_acceptInstr (s := taken s rest) hp hd

/-- Settles O57: acceptance is one step, the phases reach `finish` in at most 129 more, and the command performed whole
ends there too. -/
theorem phaseRunRefinesCommand : Obligations.PhaseRunRefinesCommand := by
  intro s w rest hr hp hg hc
  have hstep : step s = .next (acceptWord (taken s rest) w) := by
    have hi : phaseInstr s.phase = .idle := congrArg phaseInstr hp
    rw [step_phase s hr (.inl hg), hi]
    simp only [exec, execIdle, hc]
  obtain ⟨hnext, hrst⟩ := acceptWord_next (taken s rest) w
  obtain ⟨hidle, hvalid, hbound⟩ := finish_responds hnext
  obtain ⟨m, hm, hrun⟩ := run_reaches_finish (acceptWord (taken s rest) w) (hrst.trans hr)
  exact ⟨m + 1, _, by omega, by rw [run_succ hstep, hrun], hidle, hvalid, step_command_eq_finish hr hp hc⟩

end Sys2Proof.Proofs
end

section
/-! SUPPORT. Proofs of statements about the time stamps (R22, R55): the true time, and what writes `LAST_MS`. -/

namespace Sys2Proof.Proofs

open Sys2Proof.Machine Sys2Proof.Safety

/-! ### The next sample of the clock depends on the clock alone -/

@[simp] theorem nextTime_taken (s : State) (rest : List CmdWord) : (taken s rest).nextTime = s.nextTime := rfl
@[simp] theorem nextTime_quiet (s : State) : (quiet s).nextTime = s.nextTime := rfl
@[simp] theorem nowOf_taken (s : State) (rest : List CmdWord) : nowOf (taken s rest) = nowOf s := rfl
@[simp] theorem nowOf_quiet (s : State) : nowOf (quiet s) = nowOf s := rfl
@[simp] theorem nextTime_pinMode (s : State) (m : PinMode) : (s.pinMode m).nextTime = s.nextTime := rfl
@[simp] theorem nowOf_pinMode (s : State) (m : PinMode) : nowOf (s.pinMode m) = nowOf s := rfl

/-! ### The effects of the commands on the clock and on `LAST_MS` -/

@[simp] theorem respondTo_time (s : State) (c : Current) : (respondTo s c).time = s.time := rfl
@[simp] theorem respondTo_lastMs (s : State) (c : Current) : (respondTo s c).lastMs = s.lastMs := rfl

@[simp] theorem bindPin_time (pin : BitVec 8) (s : State) : (bindPin pin s).time = s.time := rfl
@[simp] theorem bindPin_lastMs (pin : BitVec 8) (s : State) : (bindPin pin s).lastMs = s.lastMs := rfl

@[simp] theorem beginEffect_time (s : State) : (beginEffect s).time = s.nextTime := by simp [beginEffect]
@[simp] theorem beginEffect_lastMs (s : State) : (beginEffect s).lastMs = nowOf s - 2000 := by
  simp [beginEffect, seed, Config.minIntervalMs]

@[simp] theorem readFresh_time (t : Word) (s : State) : (readFresh t s).time = s.time := by simp [readFresh]
@[simp] theorem readFresh_lastMs (t : Word) (s : State) : (readFresh t s).lastMs = t := by simp [readFresh]

/-- Every step leaves the true time where it is or samples the clock once, which moves it on (R55). -/
theorem steps_time_le {s t : State} (h : Steps s t) : s.time ≤ t.time := by
  have hnext := s.time_le_nextTime
  cases h with
  | begin | acceptBegin | readCached | readFresh | gateCached | gateFresh => simpa using hnext
  | _ => simp

/-- What writes `LAST_MS`: a fresh gate the time it sampled (R117), an accepted `BEGIN` the seed (R112). -/
theorem steps_lastMs {s t : State} (h : Steps s t) (hr : s.rst = false) :
    t.lastMs = s.lastMs ∨
    (t.lastMs = BitVec.ofNat 32 t.time ∧ (s.phase = .gate ∨
      (s.phase = .idle ∧ s.grain = .command ∧ ∃ w rest, s.cmds = w :: rest ∧ decodeCmd w = .ok .read))) ∨
    (t.lastMs = BitVec.ofNat 32 t.time - 2000 ∧ s.phase = .idle ∧
      ∃ w rest, s.cmds = w :: rest ∧ decodeCmd w = .ok .begin) := by
  cases h with
  | reset hrst => simp [hrst] at hr
  | begin w rest _ hp _ hc hd | acceptBegin w rest _ hp _ hc hd =>
    exact .inr (.inr ⟨by simp [nowOf], hp, w, rest, hc, hd⟩)
  | readFresh w rest _ hp hg hc hd => exact .inr (.inl ⟨by simp [nowOf], .inr ⟨hp, hg, w, rest, hc, hd⟩⟩)
  | gateFresh _ hp => exact .inr (.inl ⟨by simp [nowOf], .inl hp⟩)
  | _ => exact .inl (by simp)

/-- Settles O53, by the cases of a step. -/
theorem stepTimestampsAreMonotone : Obligations.StepTimestampsAreMonotone := fun _ _ hr h =>
  ⟨steps_time_le (step_inv h), steps_lastMs (step_inv h) hr⟩

end Sys2Proof.Proofs
end

section
/-! SUPPORT. The events a step appends (R12, R59, R60): where it reads the line inside the critical section, and where it
drives it. -/

namespace Sys2Proof.Proofs

open Sys2Proof.Machine Sys2Proof.Safety

/-! ### Writes of the line -/

/-- Among these events the line is only ever written LOW, each time directly after the pin was made an output (R53,
R142). -/
def WritesLow (es : List Event) : Prop :=
  .write .high ∉ es ∧ ∀ pre post, es = pre ++ .write .low :: post → pre.getLast? = some (.mode .output)

/-- Events without a write. -/
theorem writesLow_of_no_write {es : List Event} (h : ∀ v, .write v ∉ es) : WritesLow es :=
  ⟨h .high, fun pre post he => absurd (by simp [he]) (h .low)⟩

theorem WritesLow.append {es fs : List Event} (he : WritesLow es) (hf : WritesLow fs) : WritesLow (es ++ fs) := by
  obtain ⟨heh, hel⟩ := he
  obtain ⟨hfh, hfl⟩ := hf
  refine ⟨by simp [heh, hfh], fun pre post h => ?_⟩
  rcases List.append_eq_append_iff.mp h with ⟨mid, rfl, hmid⟩ | ⟨mid, hes, hmid⟩
  · rw [List.getLast?_append, hfl mid post hmid]; rfl
  · cases mid with
    | nil => exact absurd (hfl [] post hmid.symm) (by simp)
    | cons e mid =>
      obtain ⟨rfl, -⟩ := List.cons.inj hmid
      exact hel pre mid hes

/-- The start of the host's pulse, the only place where the block writes the line (R142). -/
theorem writesLow_drive : WritesLow [.mode .output, .write .low] := by
  refine ⟨by simp, fun pre post h => ?_⟩
  match pre, h with
  | [], h => exact absurd h (by simp)
  | [e], h =>
    obtain ⟨rfl, -⟩ := List.cons.inj h
    rfl
  | e :: e' :: pre, h => exact absurd h (by simp)

theorem writesLow_drive_delay (n : Nat) : WritesLow [.mode .output, .write .low, .delayMs n] :=
  writesLow_drive.append (fs := [.delayMs n]) (writesLow_of_no_write (by simp))

theorem writesLow_startEvents (c : Config) : WritesLow (startEvents c) :=
  (writesLow_of_no_write (es := [.mode .inputPullup, .delayMs c.prePullupMs]) (by simp)).append
    ((writesLow_drive_delay 20).append
      (writesLow_of_no_write (es := [.mode .inputPullup, .delayUs 55]) (by simp)))

theorem writesLow_reads (vs : List Level) : WritesLow (vs.map Event.read) :=
  writesLow_of_no_write (by simp)

/-! ### The events of each operation -/

@[simp] theorem respondTo_trace (s : State) (c : Current) : (respondTo s c).trace = s.trace := rfl
@[simp] theorem respondTo_crit (s : State) (c : Current) : (respondTo s c).crit = s.crit := rfl

@[simp] theorem bindPin_trace (pin : BitVec 8) (s : State) : (bindPin pin s).trace = s.trace := rfl
@[simp] theorem bindPin_crit (pin : BitVec 8) (s : State) : (bindPin pin s).crit = s.crit := rfl

@[simp] theorem beginEffect_trace (s : State) :
    (beginEffect s).trace = s.trace ++ [.mode .inputPullup, .now (nowOf s)] := by
  simp [beginEffect]
@[simp] theorem beginEffect_crit (s : State) : (beginEffect s).crit = s.crit := by simp [beginEffect]

@[simp] theorem readFresh_crit (t : Word) (s : State) : (readFresh t s).crit = false := by simp [readFresh]

/-- The events of one exchange that polls `vs` (R152). -/
def exchangeEvents (c : Config) (vs : List Level) : List Event :=
  startEvents c ++ [.critEnter] ++ vs.map Event.read ++ [.critExit]

theorem writesLow_exchangeEvents (c : Config) (vs : List Level) : WritesLow (exchangeEvents c vs) :=
  (((writesLow_startEvents c).append (writesLow_of_no_write (by simp))).append (writesLow_reads vs)).append
    (writesLow_of_no_write (by simp))

theorem critScan_reads_exit (vs : List Level) : critScan true (vs.map Event.read ++ [.critExit]) = some false := by
  rw [critScan_append, critScan_reads]; rfl

theorem critScan_exchangeEvents (c : Config) (vs : List Level) :
    critScan false (exchangeEvents c vs) = some false := by
  have hopen : critScan false (startEvents c ++ [.critEnter]) = some true := rfl
  rw [exchangeEvents, List.append_assoc, critScan_append, hopen]
  exact critScan_reads_exit vs

theorem readFresh_trace (t : Word) (s : State) :
    ∃ vs : List Level, (readFresh t s).trace = s.trace ++ exchangeEvents s.cfg vs := by
  obtain ⟨vs, -, htrace, -⟩ := xfer_cases { s with lastMs := t }
  exact ⟨vs, by simpa [readFresh, exchangeEvents] using htrace⟩

theorem expect_trace (level : Level) (s : State) : ∃ vs : List Level, (expect level s).2.trace = s.trace ++ vs.map Event.read := by
  obtain ⟨vs, hp⟩ := expect_polled level s
  exact ⟨vs, hp.trace⟩

theorem captureLow_trace (s : State) (i : Fin 40) : (captureLow s i).trace = (expect .low s).2.trace := rfl
theorem captureHigh_trace (s : State) (i : Fin 40) : (captureHigh s i).trace = (expect .high s).2.trace := rfl

/-! ### The events of each step -/

/-- From `s` to `t` the events `es` are appended; they only write LOW, and they keep to the critical section (R59, R60,
R53). -/
structure Emits (s t : State) (es : List Event) : Prop where
  trace  : t.trace = s.trace ++ es
  writes : WritesLow es
  scan   : CritMatches s → critScan s.crit es = some t.crit

/-- A step without an event. -/
theorem emits_nothing {s t : State} (ht : t.trace = s.trace) (hc : t.crit = s.crit) : ∃ es, Emits s t es :=
  ⟨[], by simpa using ht, writesLow_of_no_write (by simp), fun _ => congrArg some hc.symm⟩

/-- Events that neither write the line nor depend on the critical section. -/
theorem emits_neutral {s t : State} (es : List Event) (ht : t.trace = s.trace ++ es) (hc : t.crit = s.crit)
    (hw : ∀ v, .write v ∉ es) (hs : critScan s.crit es = some s.crit) : ∃ es, Emits s t es :=
  ⟨es, ht, writesLow_of_no_write hw, fun _ => hs.trans (congrArg some hc.symm)⟩

/-- A phase of the critical section that stays in it: it only polls (R143). -/
theorem emits_polls {s t : State} (level : Level) (hp : critOpen s.phase = true)
    (ht : t.trace = (expect level (quiet s)).2.trace) (hc : t.crit = s.crit) : ∃ es, Emits s t es := by
  obtain ⟨vs, hvs⟩ := expect_trace level (quiet s)
  refine ⟨vs.map Event.read, ht.trans hvs, writesLow_reads vs, fun hm => ?_⟩
  have hopen : s.crit = true := hm.trans hp
  rw [hc, hopen, critScan_reads]

/-- A phase of the critical section that closes it after its polls (R146). -/
theorem emits_polls_exit {s t : State} (level : Level) (hp : critOpen s.phase = true)
    (ht : t.trace = (expect level (quiet s)).2.trace ++ [.critExit]) (hc : t.crit = false) : ∃ es, Emits s t es := by
  obtain ⟨vs, hvs⟩ := expect_trace level (quiet s)
  refine ⟨vs.map Event.read ++ [.critExit], by rw [ht, hvs, List.append_assoc],
    (writesLow_reads vs).append (writesLow_of_no_write (by simp)), fun hm => ?_⟩
  have hopen : s.crit = true := hm.trans hp
  rw [hc, hopen, critScan_reads_exit]

/-- A fresh `READ` performed whole: the sample of the clock and one exchange (R152). -/
theorem emits_readFresh (s : State) (rest : List CmdWord) (t : Word) (hp : s.phase = .idle) :
    ∃ es, Emits s (respondTo (readFresh t (taken s rest).nowMs.2) .read) es := by
  obtain ⟨vs, hvs⟩ := readFresh_trace t (taken s rest).nowMs.2
  refine ⟨[.now (nowOf s)] ++ exchangeEvents s.cfg vs, by simpa using hvs,
    (writesLow_of_no_write (by simp)).append (writesLow_exchangeEvents s.cfg vs), fun hm => ?_⟩
  have hclosed : s.crit = false := by rw [hm, hp]; rfl
  rw [hclosed, respondTo_crit, readFresh_crit]
  exact critScan_exchangeEvents s.cfg vs

/-- Every step but a reset appends events in their order. -/
theorem steps_emits {s t : State} (h : Steps s t) (hr : s.rst = false) : ∃ es, Emits s t es := by
  cases h with
  | reset hrst => simp [hrst] at hr
  | begin | acceptBegin =>
    exact emits_neutral [.mode .inputPullup, .now (nowOf s)] (by simp) (by simp) (by simp) (by simp [critScan])
  | readCached | gateCached | gateFresh =>
    exact emits_neutral [.now (nowOf s)] (by simp) (by simp) (by simp) (by simp [critScan])
  | readFresh w rest _ hp => exact emits_readFresh s rest _ hp
  | startPre =>
    exact emits_neutral [.mode .inputPullup, .delayMs s.cfg.prePullupMs] (by simp) (by simp) (by simp) (by simp [critScan])
  | startLow => exact ⟨[.mode .output, .write .low, .delayMs 20], by simp, writesLow_drive_delay 20, fun _ => by simp [critScan]⟩
  | startRel _ hp =>
    refine ⟨[.mode .inputPullup, .delayUs 55, .critEnter], by simp, writesLow_of_no_write (by simp), fun hm => ?_⟩
    have hclosed : s.crit = false := by rw [hm, hp]; rfl
    rw [hclosed]; rfl
  | ackLowFail _ hp => exact emits_polls_exit .low (by rw [hp]; rfl) rfl rfl
  | ackHighFail _ hp => exact emits_polls_exit .high (by rw [hp]; rfl) rfl rfl
  | capHighLast _ hp => exact emits_polls_exit .high (by rw [hp]; rfl) rfl rfl
  | ackLowPass _ hp => exact emits_polls .low (by rw [hp]; rfl) rfl (by simp)
  | ackHighPass _ hp => exact emits_polls .high (by rw [hp]; rfl) rfl (by simp)
  | capLow _ hp => exact emits_polls .low (by rw [hp]; rfl) rfl (by simp)
  | capHighMore _ _ hp => exact emits_polls .high (by rw [hp]; rfl) rfl (by simp)
  | _ => exact emits_nothing rfl rfl

/-- Settles O54, by the events of each step. -/
theorem stepEventsFollowCriticalSection : Obligations.StepEventsFollowCriticalSection := by
  intro s t hr hm h
  obtain ⟨es, he⟩ := steps_emits (step_inv h) hr
  exact ⟨es, he.trace, he.scan hm⟩

/-- Settles O55, by the events of each step; a hardware reset has none. -/
theorem stepWritesOnlyLow : Obligations.StepWritesOnlyLow := by
  intro s t h
  cases hr : s.rst with
  | true =>
    obtain rfl : s.hardReset = t := Host.Outcome.next.inj ((step_reset s hr).symm.trans h)
    exact ⟨[], by simp, writesLow_of_no_write (by simp)⟩
  | false =>
    obtain ⟨es, he⟩ := steps_emits (step_inv h) hr
    exact ⟨es, he.trace, he.writes⟩

end Sys2Proof.Proofs
end

section
/-! SUPPORT. Proofs of statements about the encoding (30_encoding.md): the fields of a command word, the three code
spaces, the rows of the opcode table, the reserved words. -/

namespace Sys2Proof.Proofs

open Sys2Proof.Machine Sys2Proof.Safety

/-! ### The fields of a command word -/

@[simp] theorem cmdOp_append (op z : BitVec 4) (arg : BitVec 8) : cmdOp (op ++ z ++ arg) = op :=
  (BitVec.extractLsb'_append_eq_of_le (by decide)).trans BitVec.extractLsb'_append_eq_left

@[simp] theorem cmdZ_append (op z : BitVec 4) (arg : BitVec 8) : cmdZ (op ++ z ++ arg) = z :=
  (BitVec.extractLsb'_append_eq_of_le (by decide)).trans BitVec.extractLsb'_append_eq_right

@[simp] theorem cmdArg_append (op z : BitVec 4) (arg : BitVec 8) : cmdArg (op ++ z ++ arg) = arg :=
  BitVec.extractLsb'_append_eq_right

/-- A command word is its three fields (R80). -/
theorem append_fields (w : CmdWord) : cmdOp w ++ cmdZ w ++ cmdArg w = w := by
  have hhigh : cmdOp w ++ cmdZ w = w.extractLsb' 8 8 := BitVec.extractLsb'_append_extractLsb'_eq_extractLsb' rfl
  rw [hhigh]
  exact BitVec.extractLsb'_append_extractLsb' (w := 8) (len := 8) (x := w)

theorem eq_append_fields_iff {w : CmdWord} {op z : BitVec 4} {arg : BitVec 8} :
    w = op ++ z ++ arg ↔ cmdOp w = op ∧ cmdZ w = z ∧ cmdArg w = arg := by
  constructor
  · rintro rfl
    simp
  · rintro ⟨rfl, rfl, rfl⟩
    exact (append_fields w).symm

/-- The mask of `CONSTRUCT` keeps `op` and `z` and clears `arg` (R81). -/
theorem and_constructMask (w : CmdWord) : w &&& 0xFF00 = cmdOp w ++ cmdZ w ++ (0 : BitVec 8) := by
  have hmask : (0xFF00 : CmdWord) = BitVec.allOnes 4 ++ BitVec.allOnes 4 ++ (0 : BitVec 8) := rfl
  calc w &&& 0xFF00
      = (cmdOp w ++ cmdZ w ++ cmdArg w) &&& (BitVec.allOnes 4 ++ BitVec.allOnes 4 ++ (0 : BitVec 8)) := by
        rw [append_fields, hmask]
    _ = cmdOp w ++ cmdZ w ++ (0 : BitVec 8) := by
        rw [BitVec.and_append, BitVec.and_append, BitVec.and_allOnes, BitVec.and_allOnes]
        exact congrArg (_ ++ ·) BitVec.and_zero

theorem and_constructMask_eq_iff (w : CmdWord) : w &&& 0xFF00 = 0x1000 ↔ cmdOp w = 1 ∧ cmdZ w = 0 := by
  have hmatch : (0x1000 : CmdWord) = (1 : BitVec 4) ++ (0 : BitVec 4) ++ (0 : BitVec 8) := rfl
  rw [and_constructMask, hmatch, eq_append_fields_iff]
  simp

/-- The mask of a command without an operand keeps every bit, so the match fixes the three fields (R81). -/
theorem and_plainMask_eq_iff (w : CmdWord) (op : BitVec 4) :
    w &&& 0xFFFF = op ++ (0 : BitVec 4) ++ (0 : BitVec 8) ↔ cmdOp w = op ∧ cmdZ w = 0 ∧ cmdArg w = 0 := by
  rw [show w &&& 0xFFFF = w from BitVec.and_allOnes, eq_append_fields_iff]

/-! ### The decoder of command words -/

theorem decodePlain_eq_ok_iff (w : CmdWord) (i j : Instr) :
    decodePlain w j = .ok i ↔ cmdZ w = 0 ∧ cmdArg w = 0 ∧ i = j := by
  unfold decodePlain
  split
  case isTrue hz => simpa using fun h => absurd h hz
  case isFalse hz =>
    split
    case isTrue ha => simpa using fun _ h => absurd h ha
    case isFalse ha => simp_all [eq_comm]

/-- What decodes, field by field (R81, R82, R83). -/
theorem decodeCmd_eq_ok_iff_fields (w : CmdWord) (i : Instr) :
    decodeCmd w = .ok i ↔
      ((cmdOp w = 1 ∧ cmdZ w = 0) ∧ i = .construct (cmdArg w)) ∨
      ((cmdOp w = 2 ∧ cmdZ w = 0 ∧ cmdArg w = 0) ∧ i = .begin) ∨
      ((cmdOp w = 3 ∧ cmdZ w = 0 ∧ cmdArg w = 0) ∧ i = .read) ∨
      ((cmdOp w = 4 ∧ cmdZ w = 0 ∧ cmdArg w = 0) ∧ i = .getspecs) := by
  unfold decodeCmd
  by_cases h1 : cmdOp w = 1
  · by_cases hz : cmdZ w = 0
    · simp [h1, hz, eq_comm]
    · rw [if_pos h1, if_pos hz]
      simp only [hz, reduceCtorEq, and_false, false_and, or_self]
  by_cases h2 : cmdOp w = 2
  · simp [h2, decodePlain_eq_ok_iff, and_assoc]
  by_cases h3 : cmdOp w = 3
  · simp [h3, decodePlain_eq_ok_iff, and_assoc]
  by_cases h4 : cmdOp w = 4
  · simp [h4, decodePlain_eq_ok_iff, and_assoc]
  · simp only [h1, h2, h3, h4, if_false, reduceCtorEq, false_and, or_self]

/-- Settles O2: each row's mask and match fix the fields the decoder tests. -/
theorem commandWordSelectsRow : Obligations.CommandWordSelectsRow := by
  intro w i
  rw [decodeCmd_eq_ok_iff_fields, ← and_constructMask_eq_iff, ← and_plainMask_eq_iff, ← and_plainMask_eq_iff,
    ← and_plainMask_eq_iff]
  rfl

/-! ### Decoding and encoding -/

theorem encode_of_decodeCmd {w : CmdWord} {i : Instr} (h : decodeCmd w = .ok i) : encode i = .cmd w := by
  rcases (decodeCmd_eq_ok_iff_fields w i).1 h with ⟨⟨ho, hz⟩, rfl⟩ | ⟨hw, rfl⟩ | ⟨hw, rfl⟩ | ⟨hw, rfl⟩
  · exact congrArg Code.cmd (eq_append_fields_iff.2 ⟨ho, hz, rfl⟩).symm
  all_goals exact congrArg Code.cmd (eq_append_fields_iff.2 hw).symm

/-- Of the sixteen phase codes (R27). -/
theorem encode_of_decodePhase : ∀ c : BitVec 4, ∀ i ∈ (decodePhase c).toOption, encode i = .phase c := by decide

/-- Of the sixteen function-select codes (R95). -/
theorem encode_of_decodeFunc : ∀ c : BitVec 4, ∀ i ∈ (decodeFunc c).toOption, encode i = .func c := by decide

/-- What the decoder reads is what the encoder writes. -/
theorem encode_of_decode {c : Code} {i : Instr} (h : decode c = .ok i) : encode i = c := by
  cases c with
  | cmd w => exact encode_of_decodeCmd h
  | phase c => exact encode_of_decodePhase c i (congrArg Except.toOption h)
  | func c => exact encode_of_decodeFunc c i (congrArg Except.toOption h)

theorem decode_encode (i : Instr) : decode (encode i) = .ok i := by
  cases i with
  | construct pin =>
    have hw : (0x10 : BitVec 8) ++ pin = (1 : BitVec 4) ++ (0 : BitVec 4) ++ pin := rfl
    obtain ⟨ho, hz, ha⟩ := eq_append_fields_iff.1 hw
    exact (decodeCmd_eq_ok_iff_fields _ _).2 (.inl ⟨⟨ho, hz⟩, by rw [ha]⟩)
  | expect level => cases level <;> rfl
  | _ => rfl

/-- Settles O1: the decoder undoes the encoder, and reads no other pattern. -/
theorem decodeExactlyEncode : Obligations.DecodeExactlyEncode :=
  fun _ i => ⟨encode_of_decode, fun h => h ▸ decode_encode i⟩

/-- Settles O4: each word is the encoding of its instruction. -/
theorem sampleWordsDecode : Obligations.SampleWordsDecode :=
  ⟨decode_encode (.construct 4), decode_encode (.construct 255), decode_encode .begin, decode_encode .read,
    decode_encode .getspecs, decode_encode .idle, decode_encode .decode, decode_encode .respond, decode_encode .xfer,
    decode_encode (.expect .high), decode_encode .ctemp, decode_encode .mkreading⟩

/-! ### The rows of the opcode table -/

/-- Every encoding lies in its instruction's row (R81, R27, R95). -/
theorem inRow_encode (i : Instr) : inRow (encode i) (opcodeRow i) = true := by
  cases i with
  | construct pin => exact (Laws.EncodesRow.construct pin).2
  | expect level => exact (Laws.EncodesRow.expect level).2
  | _ => rfl

theorem inRow_iff (c : Code) (r : OpcodeRow) :
    inRow c r = true ↔ codeFormat c = r.format ∧ codeBits c &&& r.mask = r.value := by
  simp [inRow]

/-- The mask that keeps every bit of a code of the format. -/
def fullMask : Format → Nat
  | .cmd => 2 ^ 16 - 1
  | .phase => 2 ^ 4 - 1
  | .func => 2 ^ 4 - 1

theorem codeBits_and_fullMask (c : Code) : codeBits c &&& fullMask (codeFormat c) = codeBits c := by
  cases c with
  | cmd w | phase w | func w =>
    simp only [codeBits, codeFormat, fullMask, Nat.and_two_pow_sub_one_eq_mod]
    exact Nat.mod_eq_of_lt w.isLt

/-- A code is its format and its bits. -/
theorem code_ext {c d : Code} (hf : codeFormat c = codeFormat d) (hb : codeBits c = codeBits d) : c = d :=
  match c, d, hf, hb with
  | .cmd _, .cmd _, _, hb => congrArg Code.cmd (BitVec.eq_of_toNat_eq hb)
  | .phase _, .phase _, _, hb => congrArg Code.phase (BitVec.eq_of_toNat_eq hb)
  | .func _, .func _, _, hb => congrArg Code.func (BitVec.eq_of_toNat_eq hb)

/-- A row whose mask keeps every bit holds one code. -/
theorem eq_of_inRow_fullMask {c d : Code} {r : OpcodeRow} (hm : r.mask = fullMask r.format) (hc : inRow c r = true)
    (hd : inRow d r = true) : c = d := by
  obtain ⟨hcf, hcv⟩ := (inRow_iff c r).1 hc
  obtain ⟨hdf, hdv⟩ := (inRow_iff d r).1 hd
  rw [hm, ← hcf, codeBits_and_fullMask] at hcv
  rw [hm, ← hdf, codeBits_and_fullMask] at hdv
  exact code_ext (hcf.trans hdf.symm) (hcv.trans hdv.symm)

theorem decodeCmd_of_constructRow {w : CmdWord} (h : w.toNat &&& 0xFF00 = 0x1000) :
    decodeCmd w = .ok (.construct (cmdArg w)) := by
  have hw : w &&& 0xFF00 = 0x1000 := BitVec.eq_of_toNat_eq h
  exact (commandWordSelectsRow w _).2 (.inl ⟨hw, rfl⟩)

theorem decodeFunc_of_expectRow : ∀ {c : BitVec 4}, c.toNat &&& 0xE = 0x2 →
    decodeFunc c = .ok (.expect (levelOfBit (c.getLsbD 0))) := by
  decide

/-- A code in the row of an instruction decodes to an instruction of that row: the rows of `CONSTRUCT` and `EXPECT` leave
the operand open, every other row holds the one encoding. -/
theorem decode_of_inRow {c : Code} {i : Instr} (h : inRow c (opcodeRow i) = true) :
    ∃ j, decode c = .ok j ∧ opcodeRow j = opcodeRow i := by
  cases i with
  | construct pin =>
    obtain ⟨hf, hv⟩ := (inRow_iff _ _).1 h
    cases c with
    | cmd w => exact ⟨_, decodeCmd_of_constructRow hv, rfl⟩
    | phase c | func c => cases hf
  | expect level =>
    obtain ⟨hf, hv⟩ := (inRow_iff _ _).1 h
    cases c with
    | func c => exact ⟨_, decodeFunc_of_expectRow hv, rfl⟩
    | cmd c | phase c => cases hf
  | _ =>
    rw [eq_of_inRow_fullMask rfl h (inRow_encode _)]
    exact ⟨_, decode_encode _, rfl⟩

theorem inRow_of_decode {c : Code} {i : Instr} (h : decode c = .ok i) : inRow c (opcodeRow i) = true :=
  encode_of_decode h ▸ inRow_encode i

/-- Settles O3: a code in a row decodes into that row, and it decodes to one instruction. -/
theorem opcodeRowsDisjointAndDecoded : Obligations.OpcodeRowsDisjointAndDecoded := by
  refine ⟨fun c i j hi hj => ?_, ?_⟩
  · obtain ⟨i', hdi, hri⟩ := decode_of_inRow hi
    obtain ⟨j', hdj, hrj⟩ := decode_of_inRow hj
    obtain rfl : i' = j' := Except.ok.inj (hdi.symm.trans hdj)
    exact hri.symm.trans hrj
  · rintro c _ ⟨i, rfl⟩
    refine ⟨decode_of_inRow, ?_⟩
    rintro ⟨j, hd, hr⟩
    exact hr ▸ inRow_of_decode hd

/-! ### The reserved words -/

theorem exists_decodeCmd_ok_iff (w : CmdWord) : (∃ i, decodeCmd w = .ok i) ↔
    (cmdOp w = 1 ∧ cmdZ w = 0) ∨ (cmdOp w = 2 ∨ cmdOp w = 3 ∨ cmdOp w = 4) ∧ cmdZ w = 0 ∧ cmdArg w = 0 := by
  simp only [decodeCmd_eq_ok_iff_fields, exists_or, exists_eq_right]
  tauto

/-- The three kinds of reserved word are what no row admits (R83). -/
theorem reservedWord_iff (w : CmdWord) : reservedWord w ↔ ∀ i, decodeCmd w ≠ .ok i := by
  have hop : ∀ op : BitVec 4, (op = 0 ∨ 5 ≤ op.toNat) ↔ ¬ (op = 1 ∨ op = 2 ∨ op = 3 ∨ op = 4) := by decide
  have hplain : ∀ op : BitVec 4, (2 ≤ op.toNat ∧ op.toNat ≤ 4) ↔ op = 2 ∨ op = 3 ∨ op = 4 := by decide
  have hone : cmdOp w = 1 → ¬ (cmdOp w = 2 ∨ cmdOp w = 3 ∨ cmdOp w = 4) := fun h => h ▸ by decide
  have hr : reservedWord w ↔ ((cmdOp w = 0 ∨ 5 ≤ (cmdOp w).toNat) ∨ cmdZ w ≠ 0 ∨
    ((2 ≤ (cmdOp w).toNat ∧ (cmdOp w).toNat ≤ 4) ∧ cmdArg w ≠ 0)) := Iff.rfl
  rw [← not_exists, exists_decodeCmd_ok_iff, hr, hop, hplain]
  tauto

theorem decodeCmd_of_reservedWord {w : CmdWord} (h : reservedWord w) : ∃ e, decodeCmd w = .error e := by
  cases hd : decodeCmd w with
  | error e => exact ⟨e, rfl⟩
  | ok i => exact absurd hd ((reservedWord_iff w).1 h i)

/-- In `IDLE` a refusal only delivers `ERR` (R215). -/
theorem refuse_taken_of_idle {s : State} (hp : s.phase = .idle) (rest : List CmdWord) :
    State.refuse (taken s rest) = answered { s with cmds := rest } .refused .err := by
  simp only [State.refuse, State.deliver, answered, hp]

/-- Settles O5: a reserved word decodes to no command, and both grains refuse such a word. -/
theorem reservedWordIsRefused : Obligations.ReservedWordIsRefused := by
  refine ⟨reservedWord_iff, .inl (.inl rfl), fun s w rest hw hr hp hc => ?_⟩
  obtain ⟨e, hd⟩ := decodeCmd_of_reservedWord hw
  refine ⟨fun hg => ?_, ?_⟩
  · rw [step_command s w rest hr hg hp hc, hd]
    exact congrArg Host.Outcome.next (refuse_taken_of_idle hp rest)
  · simp only [exec, execIdle, hc, acceptWord, hd, toRespond]

end Sys2Proof.Proofs
end

section
/-! SUPPORT. Proofs of statements about responses and the result encodings (R89 to R92): which step delivers a response,
what `RESPOND` delivers, the Reading and the Specs record on the port. -/

namespace Sys2Proof.Proofs

open Sys2Proof.Machine Sys2Proof.Safety

/-! ### Which steps respond -/

@[simp] theorem respondTo_phase (s : State) (c : Current) : (respondTo s c).phase = .idle := rfl
@[simp] theorem respondTo_rspValid (s : State) (c : Current) : (respondTo s c).rspValid = true := rfl

@[simp] theorem bindPin_rspValid (pin : BitVec 8) (s : State) : (bindPin pin s).rspValid = s.rspValid := rfl
@[simp] theorem beginEffect_rspValid (s : State) : (beginEffect s).rspValid = s.rspValid := by simp [beginEffect]

/-- A step raises `rsp_valid` when it delivers the response of a command performed whole, of a refused word or of
`RESPOND`, and then it returns to `IDLE` (R92, R110); every other step lowers it. -/
theorem steps_responds {s t : State} (h : Steps s t) (hr : s.rst = false) :
    (t.rspValid = true ∧ t.phase = .idle ∧
      (s.phase = .respond ∨ (s.phase = .idle ∧ s.grain = .command ∧ s.cmds ≠ []))) ∨
    (t.rspValid = false ∧ s.phase ≠ .respond ∧ ¬ (s.phase = .idle ∧ s.grain = .command ∧ s.cmds ≠ [])) := by
  cases h with
  | reset hrst => simp [hrst] at hr
  | construct w rest p _ hp hg hc => exact .inl ⟨rfl, rfl, .inr ⟨hp, hg, by simp [hc]⟩⟩
  | refuse w rest _ hp hg hc | begin w rest _ hp hg hc | readCached w rest _ hp hg hc
  | readFresh w rest _ hp hg hc | getspecs w rest _ hp hg hc => exact .inl ⟨rfl, rfl, .inr ⟨hp, hg, by simp [hc]⟩⟩
  | respond _ hp => exact .inl ⟨rfl, rfl, .inl hp⟩
  | wait _ hp hc => exact .inr ⟨rfl, by simp [hp], by simp [hc]⟩
  | acceptRefused w rest _ hp hg | acceptConstruct w rest p _ hp hg | acceptBegin w rest _ hp hg
  | acceptRead w rest _ hp hg | acceptSpecs w rest _ hp hg => exact .inr ⟨by simp, by simp [hp], by simp [hg]⟩
  | gateCached _ hp | gateFresh _ hp | clear _ hp | startPre _ hp | startLow _ hp | startRel _ hp | ackLowFail _ hp
  | ackLowPass _ hp | ackHighFail _ hp | ackHighPass _ hp | capLow _ hp | capHighMore _ _ hp | capHighLast _ hp
  | decodeFail _ hp | decodeMore _ _ hp | decodeLast _ hp | csum _ hp =>
    exact .inr ⟨by simp [packCurrent], by simp [hp], by simp [hp]⟩

/-- Settles O56, by the cases of a step. -/
theorem oneResponsePerCommand : Obligations.OneResponsePerCommand := by
  intro s t hr h
  rcases steps_responds (step_inv h) hr with ⟨hv, hi, hs⟩ | ⟨hv, hn, hc⟩
  · exact ⟨⟨fun _ => hs, fun _ => hv⟩, fun _ => hi⟩
  · simp [hv, hn, hc]

/-- Settles O32, by the command in progress; the response of `READ` is `reading_mkReading`. -/
theorem respondPhaseDelivers : Obligations.RespondPhaseDelivers := by
  intro s
  have hx : exec .respond s = .next { s with rspValid := true, phase := .idle, rsp := responseOf s s.cur } := rfl
  rw [hx]
  cases hc : s.cur with
  | read => simp only [responseOf, reading_mkReading]
  | _ => rfl

/-! ### The Reading on the port -/

/-- A rounded magnitude is at most that of infinity (R185). -/
theorem roundMag_le (m e : Nat) : roundMag m e ≤ 0x7F800000 := Nat.min_le_right _ _

/-- No result of the converter's arithmetic is the quiet NaN of R90: without its sign bit it is at most infinity. -/
theorem f32Pack_ne_noValue (neg : Bool) (m e : Nat) : f32Pack neg m e ≠ noValue := by
  have hle := roundMag_le m e
  intro h
  have h := congrArg BitVec.toNat h
  cases neg <;> simp [f32Pack, noValue] at h <;> omega

theorem ctemp_ne_noValue (f : Vector Byte 5) : ctemp f ≠ noValue := f32Pack_ne_noValue _ _ _
theorem chum_ne_noValue (f : Vector Byte 5) : chum f ≠ noValue := f32Pack_ne_noValue _ _ _

theorem readingWord_temperature (r : Reading) : (readingWord r).extractLsb' 32 32 = r.temperature.getD noValue :=
  (BitVec.extractLsb'_append_eq_of_le (by decide)).trans BitVec.extractLsb'_append_eq_right

theorem readingWord_humidity (r : Reading) : (readingWord r).extractLsb' 0 32 = r.humidity.getD noValue :=
  BitVec.extractLsb'_append_eq_right

theorem readingWord_isValid (r : Reading) : (readingWord r).getLsbD 64 = r.isValid := by
  unfold readingWord
  rw [BitVec.getLsbD_append, BitVec.getLsbD_append]
  simp

/-- Settles O59: an invalid Reading has no values, and no value of a valid one is the marker. -/
theorem markerExactlyWhenInvalid : Obligations.MarkerExactlyWhenInvalid := by
  intro ok f
  rw [readingWord_temperature, readingWord_humidity, readingWord_isValid]
  cases ok with
  | false => exact ⟨iff_of_true rfl rfl, iff_of_true rfl rfl, rfl⟩
  | true =>
    exact ⟨iff_of_false (ctemp_ne_noValue f) (by decide), iff_of_false (chum_ne_noValue f) (by decide), rfl⟩

/-! ### The Specs record on the port -/

/-- Settles O60: the record is the eight fields one after the other. -/
theorem specsWordLayout : Obligations.SpecsWordLayout := by
  intro s
  -- `Nat.reduceAdd` stays out: it would rewrite the widths, and the appends would no longer be seen
  simp only [rspSpecs, specsWord, specsRecord, BitVec.extractLsb'_append_eq_of_le, BitVec.extractLsb'_append_eq_right,
    BitVec.extractLsb'_eq_self, Nat.reduceLeDiff, Nat.reduceSub, true_and]
  rfl

end Sys2Proof.Proofs
end

section
/-! SUPPORT. Proofs of statements about the four host commands (40_driver_commands.md): what each does in `IDLE`, the
interval gate, acceptance, and that every step answers. -/

namespace Sys2Proof.Proofs

open Sys2Proof.Machine Sys2Proof.Safety

/-! ### Acceptance of a command -/

theorem whenIdle_of_not_idle {s : State} (h : s.phase ≠ .idle) (run : State → State) : whenIdle s run = s := if_neg h

/-- In `IDLE` the delivery of a response changes nothing but the response (R92). -/
theorem deliver_of_idle {s : State} (hp : s.phase = .idle) (c : Current) (r : Response) :
    s.deliver c r = answered s c r := by
  simp only [State.deliver, answered, hp]

@[simp] theorem answered_phase (s : State) (c : Current) (r : Response) : (answered s c r).phase = s.phase := rfl
@[simp] theorem answered_bound (s : State) (c : Current) (r : Response) : (answered s c r).bound = s.bound := rfl
@[simp] theorem answered_lastMs (s : State) (c : Current) (r : Response) : (answered s c r).lastMs = s.lastMs := rfl
@[simp] theorem answered_lastOk (s : State) (c : Current) (r : Response) : (answered s c r).lastOk = s.lastOk := rfl
@[simp] theorem answered_frame (s : State) (c : Current) (r : Response) : (answered s c r).frame = s.frame := rfl
@[simp] theorem answered_dur (s : State) (c : Current) (r : Response) : (answered s c r).dur = s.dur := rfl
@[simp] theorem answered_mode (s : State) (c : Current) (r : Response) : (answered s c r).mode = s.mode := rfl
@[simp] theorem answered_rsp (s : State) (c : Current) (r : Response) : (answered s c r).rsp = r := rfl
@[simp] theorem answered_line (s : State) (c : Current) (r : Response) : (answered s c r).line = s.line := rfl
@[simp] theorem answered_time (s : State) (c : Current) (r : Response) : (answered s c r).time = s.time := rfl
@[simp] theorem answered_trace (s : State) (c : Current) (r : Response) : (answered s c r).trace = s.trace := rfl

/-- `BEGIN`, `READ` and `GETSPECS` in `IDLE`: refused while `BOUND` = 0 (R26, R110). -/
theorem whenIdle_whenBound {s : State} (hp : s.phase = .idle) (run : State → State) :
    whenIdle s (fun s => whenBound s run) = if s.bound then run s else answered s .refused .err := by
  rw [whenIdle_of_idle hp, whenBound, State.refuse, deliver_of_idle hp]

/-- Settles O9: unbound the pin is bound, bound the command is refused, and `IDLE` is kept. -/
theorem constructBindsPinOnce : Obligations.ConstructBindsPinOnce := by
  intro s p hp
  have hp' : (bindPin p s).phase = .idle := hp
  have hbind : respondTo (bindPin p s) .construct = answered (bindPin p s) .construct .ok := deliver_of_idle hp' _ _
  have hrefuse : s.refuse = answered s .refused .err := deliver_of_idle hp _ _
  simp only [exec, execConstruct, whenIdle_of_idle hp, hbind, hrefuse]
  rfl

/-- Settles O22: the record is `specsRecord`, delivered without any other change. -/
theorem getSpecsReturnsRecord : Obligations.GetSpecsReturnsRecord := by
  intro s hp
  have hspecs : respondTo s .getspecs = answered s .getspecs (.specs (specsRecord s.cfg)) := deliver_of_idle hp _ _
  simp only [exec, execGetspecs, whenIdle_whenBound hp, hspecs, specsRecord, Config.minIntervalMs]

/-- No step outside `IDLE` takes a word from the command port (R110, R247). -/
theorem steps_keeps_cmds {s t : State} (h : Steps s t) (hr : s.rst = false) (hi : s.phase ≠ .idle) :
    t.cmds = s.cmds := by
  cases h with
  | reset hrst => simp [hrst] at hr
  | respond => rfl
  | gateCached | gateFresh | clear | startPre | startLow | startRel | ackLowFail | ackLowPass | ackHighFail
  | ackHighPass | capLow | capHighMore | capHighLast | decodeFail | decodeMore | decodeLast | csum => simp
  | _ => contradiction

/-- Settles O23: a command outside `IDLE` returns the state it found, and the phases leave the port alone. -/
theorem commandWaitsForIdle : Obligations.CommandWaitsForIdle := by
  refine ⟨fun s i hp hi => ?_, fun s t hr hp h => steps_keeps_cmds (step_inv h) hr hp⟩
  rcases hi with rfl | rfl | rfl | ⟨pin, rfl⟩ <;> exact congrArg Host.Outcome.next (whenIdle_of_not_idle hp _)

/-! ### The interval gate -/

/-- The 32-bit difference of two samples of a clock that moved on by `d` (R117). -/
theorem ofNat_add_sub_ofNat (b d : Nat) : BitVec.ofNat 32 (b + d) - BitVec.ofNat 32 b = BitVec.ofNat 32 d := by
  rw [BitVec.ofNat_add, add_sub_cancel_left]

/-- The gate finds the seed of `BEGIN` 2000 ms older than the sample it was made from (R112, R117). -/
theorem sub_seed (t b : Word) : t - (b - 2000) = t - b + 2000 :=
  (sub_add t b 2000).symm

/-- After `BEGIN` at `b` the gate is fresh for fewer than 2^32 − 2000 ms (R117). -/
theorem gate_fresh_of_seed (b d : Nat) (hd : d < 2 ^ 32 - 2000) :
    gate (BitVec.ofNat 32 (b + d)) (BitVec.ofNat 32 b - 2000) = .fresh := by
  have hseed : (2000 : Word).toNat = 2000 := rfl
  rw [gate_fresh_iff, sub_seed, ofNat_add_sub_ofNat, BitVec.toNat_add, BitVec.toNat_ofNat, hseed]
  omega

/-- After a fresh `READ` at `t0` the gate is cached below 2000 ms (R117). -/
theorem gate_cached_of_sample (t0 d : Nat) :
    gate (BitVec.ofNat 32 (t0 + d)) (BitVec.ofNat 32 t0) = .cached ↔ d % 2 ^ 32 < 2000 := by
  rw [gate_cached_iff, ofNat_add_sub_ofNat, BitVec.toNat_ofNat]

/-- Settles O11: the difference is the one of `BitVec`, and a common start of both samples cancels. -/
theorem gateIsModularElapsed : Obligations.GateIsModularElapsed := by
  refine ⟨fun t l => ⟨?_, ?_⟩, gate_fresh_of_seed, gate_cached_of_sample⟩
  · rw [gate_cached_iff, BitVec.toNat_sub]
    omega
  · cases gate t l <;> simp

/-! ### `BEGIN` -/

/-- What `BEGIN` does (R112): the pin mode, one sample of the clock, the seed. -/
theorem beginEffect_eq (s : State) :
    beginEffect s = { s with mode := .inputPullup, lastMs := nowOf s - 2000, time := s.nextTime, clock := s.clock.tail,
                             clockDraws := s.clockDraws + (1 - s.clock.length),
                             trace := s.trace ++ [.mode .inputPullup, .now (nowOf s)] } := by
  have htrace := beginEffect_trace s
  simp only [beginEffect, State.nowMs_eq] at htrace ⊢
  rw [← htrace]; rfl

theorem beginEffect_phase (s : State) : (beginEffect s).phase = s.phase := by rw [beginEffect_eq]

theorem exec_begin {s : State} (hp : s.phase = .idle) (hb : s.bound = true) :
    exec .begin s = .next (answered (beginEffect s) .begin .ok) := by
  have hp' : (beginEffect s).phase = .idle := (beginEffect_phase s).trans hp
  simp only [exec, execBegin, whenIdle_whenBound hp, hb, if_true]
  exact congrArg Host.Outcome.next (deliver_of_idle hp' _ _)

/-- Settles O10: `beginEffect_eq` gives the state; at the same sample the elapsed time is 2000. -/
theorem beginSeedsTimestamp : Obligations.BeginSeedsTimestamp := by
  refine ⟨fun s hp hb => ?_, fun s hp hb => ?_, fun t => ?_⟩
  · rw [exec_begin hp hb, beginEffect_eq]
  · simp [exec, execBegin, whenIdle_whenBound hp, hb]
  · have helapsed : t - (t - 2000) = 2000 := by rw [sub_seed]; simp
    exact ⟨helapsed, by rw [gate_fresh_iff, helapsed]; decide⟩

/-! ### `READ` -/

@[simp] theorem sampled_cfg (s : State) : (sampled s).cfg = s.cfg := rfl
@[simp] theorem sampled_trace (s : State) : (sampled s).trace = s.trace ++ [Event.now (nowOf s)] := rfl

/-- The response of `READ`: the Reading of `LAST_OK` and `FRAME` (R113, R191). -/
def readResponse (s : State) : Response := if s.lastOk then readingOf s.frame else noReading

theorem readResponse_answered (s : State) (c : Current) (r : Response) :
    readResponse (answered s c r) = readResponse s := rfl

theorem readFresh_mode (t : Word) (s : State) : (readFresh t s).mode = .inputPullup := by simp [readFresh]
theorem readFresh_phase (t : Word) (s : State) : (readFresh t s).phase = s.phase := by simp [readFresh]

theorem readEffect_phase (s : State) : (readEffect s).phase = s.phase := by
  cases hg : gate (nowOf s) s.lastMs with
  | cached => rw [readEffect_cached hg]; rfl
  | fresh => rw [readEffect_fresh hg, readFresh_phase]; rfl

theorem readEffect_bound (s : State) : (readEffect s).bound = s.bound := by
  cases hg : gate (nowOf s) s.lastMs with
  | cached => rw [readEffect_cached hg]; rfl
  | fresh => rw [readEffect_fresh hg, readFresh_bound]; rfl

theorem exec_read {s : State} (hp : s.phase = .idle) (hb : s.bound = true) :
    exec .read s = .next (answered (readEffect s) .read (readResponse (readEffect s))) := by
  have hp' : (readEffect s).phase = .idle := (readEffect_phase s).trans hp
  simp only [exec, execRead, whenIdle_whenBound hp, hb, if_true]
  rw [respondTo, deliver_of_idle hp', responseOf, reading_mkReading, readResponse]

/-- `READ` on the cached path (R114). -/
theorem exec_read_cached {s : State} (hp : s.phase = .idle) (hb : s.bound = true)
    (hg : gate (nowOf s) s.lastMs = .cached) :
    exec .read s = .next (answered (sampled s) .read (readResponse s)) := by
  rw [exec_read hp hb, readEffect_cached hg]; rfl

/-- `READ` on the fresh path (R115). -/
theorem exec_read_fresh {s : State} (hp : s.phase = .idle) (hb : s.bound = true)
    (hg : gate (nowOf s) s.lastMs = .fresh) :
    exec .read s = .next (answered (readFresh (nowOf s) (sampled s)) .read
      (readResponse (readFresh (nowOf s) (sampled s)))) := by
  rw [exec_read hp hb, readEffect_fresh hg]

/-- Settles O12, by the two paths of the gate. -/
theorem readFollowsGate : Obligations.ReadFollowsGate := by
  refine fun s hp => ⟨fun hb => ?_, fun hb hlt => ?_, fun hb hge => ?_⟩
  · simp [exec, execRead, whenIdle_whenBound hp, hb]
  · rw [exec_read_cached hp hb ((gate_cached_iff _ _).2 hlt), readResponse]
  · rw [exec_read_fresh hp hb ((gate_fresh_iff _ _).2 hge), readResponse, readFresh]

/-- Settles O13, by `exec_read_cached`. -/
theorem readCachedTouchesNothing : Obligations.ReadCachedTouchesNothing :=
  fun _ hp hb hg => ⟨_, exec_read_cached hp hb hg, rfl, rfl, rfl⟩

/-- What the fresh path does (R115, R150 to R152): the exchange of `xfer_cases`, with `LAST_MS` and `LAST_OK`. -/
theorem readFresh_cases (t : Word) (s : State) :
    ∃ vs : List Level,
      readFresh t s = { s with lastMs := t, lastOk := (readFresh t s).lastOk, frame := (readFresh t s).frame,
                               dur := (readFresh t s).dur, cnt := (readFresh t s).cnt, idx := (readFresh t s).idx,
                               crit := false, mode := .inputPullup, drv := .low, line := (readFresh t s).line,
                               lineDraws := (readFresh t s).lineDraws, trace := (readFresh t s).trace } ∧
      (readFresh t s).trace = s.trace ++ exchangeEvents s.cfg vs ∧
      1 ≤ vs.length ∧ vs.length ≤ 82 * s.cfg.maxc ∧
      (¬ ackPasses s → vs.length ≤ 2 * s.cfg.maxc) ∧ (ackPasses s → 82 ≤ vs.length) ∧
      ((readFresh t s).lastOk = true → checksumOk (readFresh t s).frame = true) := by
  obtain ⟨vs, hsame, htrace, hcounts⟩ := xfer_cases { s with lastMs := t }
  refine ⟨vs, ?_, ?_, hcounts⟩
  · rw [readFresh, hsame]
  · simpa [readFresh, exchangeEvents] using htrace

/-- Settles O14, by `readFresh_cases`. -/
theorem readFreshOutcome : Obligations.ReadFreshOutcome := by
  intro s hp hb hg
  obtain ⟨vs, hsame, -, -, -, -, -, hok⟩ := readFresh_cases (nowOf s) (sampled s)
  refine ⟨_, exec_read_fresh hp hb hg, ?_, ?_, ?_⟩
  · rw [hsame]
    rfl
  · simpa [readResponse] using fun h => ⟨hok h, by simp [h]⟩
  · simpa [readResponse] using fun h => by simp [h]

/-- Settles O15, by `readFresh_cases`. -/
theorem readFreshTrace : Obligations.ReadFreshTrace := by
  intro s t hp hb hg h
  obtain rfl := Host.Outcome.next.inj ((exec_read_fresh hp hb hg).symm.trans h)
  obtain ⟨vs, -, htrace, hone, hmost, hfail, hpass, -⟩ := readFresh_cases (nowOf s) (sampled s)
  refine ⟨vs, hone, hmost, hfail, hpass, ?_⟩
  rw [answered_trace, htrace]
  simp [exchangeEvents]

/-- Settles O19: the cached `READ` answers from `LAST_OK` and `FRAME`, as the `READ` before it did. -/
theorem repeatedReadIsIdempotent : Obligations.RepeatedReadIsIdempotent := by
  intro s t hp hb h hg
  obtain rfl := Host.Outcome.next.inj ((exec_read hp hb).symm.trans h)
  have hp' := (readEffect_phase s).trans hp
  have hb' := (readEffect_bound s).trans hb
  refine ⟨_, exec_read_cached hp' hb' hg, ?_, ?_⟩
  · rw [answered_rsp, answered_rsp, readResponse_answered]
  · rw [answered_trace, sampled_trace]

/-- The fresh path stores the sample and enters the critical section (R115, R143). -/
theorem exec_read_fresh_opens {s : State} (hp : s.phase = .idle) (hb : s.bound = true)
    (hg : gate (nowOf s) s.lastMs = .fresh) :
    ∃ t, exec .read s = .next t ∧ t.lastMs = nowOf s ∧ .critEnter ∈ t.trace.drop s.trace.length := by
  obtain ⟨vs, htrace⟩ := readFresh_trace (nowOf s) (sampled s)
  refine ⟨_, exec_read_fresh hp hb hg, ?_, ?_⟩
  · rw [answered_lastMs, readFresh_lastMs]
  · rw [answered_trace, htrace]
    simp [exchangeEvents]

/-- Settles O20: the seed keeps the gate fresh, and the fresh path opens the critical section. -/
theorem beginPermitsImmediateRead : Obligations.BeginPermitsImmediateRead := by
  intro s t hp hb h hlt
  have ht := Host.Outcome.next.inj ((exec_begin hp hb).symm.trans h)
  have hp' : t.phase = .idle := by rw [← ht, answered_phase, beginEffect_phase, hp]
  have hb' : t.bound = true := by rw [← ht, answered_bound, beginEffect_bound, hb]
  have hseed : t.lastMs = BitVec.ofNat 32 t.time - 2000 := by simp [← ht, nowOf]
  have hg : gate (nowOf t) t.lastMs = .fresh := by
    rw [hseed]
    exact gate_fresh_of_seed t.time t.clockAdvance (Nat.lt_of_add_lt_add_left hlt)
  exact ⟨hg, exec_read_fresh_opens hp' hb' hg⟩

/-- Settles O21: with `LAST_MS` = 0 the elapsed time is the sample itself. -/
theorem readBeforeBegin : Obligations.ReadBeforeBegin := by
  intro s hp hb hl hok
  have helapsed : nowOf s - s.lastMs = nowOf s := by rw [hl]; simp
  refine ⟨fun hlt => ?_, fun hge => ?_⟩
  · have hg : gate (nowOf s) s.lastMs = .cached := by rw [gate_cached_iff, helapsed]; exact hlt
    rw [exec_read_cached hp hb hg, readResponse, hok]; rfl
  · have hg : gate (nowOf s) s.lastMs = .fresh := by rw [gate_fresh_iff, helapsed]; omega
    exact ⟨_, exec_read_fresh hp hb hg, by rw [answered_lastMs, readFresh_lastMs],
      by rw [answered_mode, readFresh_mode]⟩

/-! ### The rows `IDLE` and `GATE` of the transition table -/

/-- Settles O24, by the command the word decodes to. -/
theorem idleAcceptsCommand : Obligations.IdleAcceptsCommand := by
  refine ⟨fun s hp hc => ?_, fun s w rest i hc hd => ?_⟩
  · simp only [exec, execIdle, hc]
    rw [goto, ← hp]
  · have haccept : exec .idle s = .next (acceptInstr { s with cmds := rest } i) := by
      simp only [exec, execIdle, hc, acceptWord, hd]
    rw [haccept]
    refine ⟨?_, ?_, ?_, ?_, ?_⟩
    · rintro p rfl hb
      simp [acceptInstr, hb, toRespond, bindPin]
    · rintro rfl hb
      simp only [acceptInstr, hb, if_true, beginEffect_eq]; rfl
    · rintro rfl hb
      simp [acceptInstr, hb]
    · rintro rfl hb
      simp [acceptInstr, hb, toRespond]
    · rintro (⟨p, rfl, hb⟩ | ⟨rfl | rfl | rfl, hb⟩) <;> simp [acceptInstr, hb, toRespond]

/-- Settles O25, by the two paths of the gate. -/
theorem gatePhaseTransition : Obligations.GatePhaseTransition := by
  intro s
  simp only [exec, execGate, State.nowMs_eq]
  cases hg : gate (nowOf s) s.lastMs with
  | cached => rw [if_pos ((gate_cached_iff _ _).1 hg)]; rfl
  | fresh => rw [if_neg ((gate_fresh_iff _ _).1 hg)]; rfl

/-! ### Every step answers -/

theorem exec_answers (i : Instr) (s : State) : ∃ t, exec i s = .next t := by
  cases i with
  | idle =>
    cases hc : s.cmds with
    | nil => exact ⟨goto s .idle, by simp only [exec, execIdle, hc]⟩
    | cons w rest => exact ⟨acceptWord { s with cmds := rest } w, by simp only [exec, execIdle, hc]⟩
  | _ => exact ⟨_, rfl⟩

/-- Settles O46: a reset, an instruction and a refusal each give a next state. -/
theorem stepAlwaysAnswers : Obligations.StepAlwaysAnswers := by
  intro s
  unfold step
  split
  · exact ⟨_, rfl⟩
  · split
    · exact exec_answers _ _
    · exact ⟨_, rfl⟩

end Sys2Proof.Proofs
end

section
/-! SUPPORT. The exchange on a line that sends a frame (R145 to R149, R173): each `EXPECT` consumes the rest of its pulse
and the first sample of the next one. -/

namespace Sys2Proof.Proofs

open Sys2Proof.Machine Sys2Proof.Safety

/-- Writing `g i` at `i` and then `g` at every element of `is` is writing `g` at every element of `i :: is`. -/
theorem ite_mem_cons {α : Type} (g : Fin 40 → α) (b : α) (i j : Fin 40) (is : List (Fin 40)) :
    (if j ∈ is then g j else if j = i then g i else b) = if j ∈ i :: is then g j else b := by
  by_cases hmem : j ∈ is
  · simp [hmem]
  · by_cases heq : j = i <;> simp [hmem, heq]

/-! ### The two durations of a bit -/

theorem durLow_setDurLow (d : Vector Word 80) (i j : Fin 40) (v : Word) :
    durLow (setDurLow d i v) j = if j = i then v else durLow d j := by
  simp [durLow, setDurLow, Vector.getElem_set, Fin.ext_iff, eq_comm]

theorem durHigh_setDurHigh (d : Vector Word 80) (i j : Fin 40) (v : Word) :
    durHigh (setDurHigh d i v) j = if j = i then v else durHigh d j := by
  simp [durHigh, setDurHigh, Vector.getElem_set, Fin.ext_iff, eq_comm]

theorem durLow_setDurHigh (d : Vector Word 80) (i j : Fin 40) (v : Word) :
    durLow (setDurHigh d i v) j = durLow d j := by
  have hne : 2 * i.val + 1 ≠ 2 * j.val := by omega
  simp [durLow, setDurHigh, hne]

theorem durHigh_setDurLow (d : Vector Word 80) (i j : Fin 40) (v : Word) :
    durHigh (setDurLow d i v) j = durHigh d j := by
  have hne : 2 * i.val ≠ 2 * j.val + 1 := by omega
  simp [durHigh, setDurLow, hne]

/-! ### The decoded frame -/

theorem mem_bitIndices (i : Fin 40) : i ∈ bitIndices := List.mem_finRange i

/-- Packing a list of bits writes their places and no other (R148). -/
theorem wireBit_packFold (d : Vector Word 80) (is : List (Fin 40)) (f : Vector Byte 5) (j : Fin 40) :
    wireBit (is.foldl (decodeBit d) f) j = if j ∈ is then bitValue d j else wireBit f j := by
  induction is generalizing f with
  | nil => simp
  | cons i is ih =>
    rw [List.foldl_cons, ih, decodeBit, wireBit_packBit]
    exact ite_mem_cons (bitValue d) _ i j is

/-- Every wire bit of the decoded frame is the comparison of its two durations (R147, R148). -/
theorem wireBit_decodeFrame (d : Vector Word 80) (f : Vector Byte 5) (i : Fin 40) :
    wireBit (decodeFrame d f) i = bitValue d i := by
  rw [decodeFrame, wireBit_packFold, if_pos (mem_bitIndices i)]

/-! ### One `EXPECT` on its pulse -/

theorem ack_run {s : State} {a0 a1 : Nat} {rest : List Level} (h0 : a0 < s.cfg.maxc) (h1 : a1 < s.cfg.maxc)
    (h : s.line = List.replicate a0 Level.low ++ Level.high :: (List.replicate a1 Level.high ++ Level.low :: rest)) :
    (Machine.ack s).1 = true ∧ (Machine.ack s).2.line = rest := by
  have hlow := expect_run a0 .low .high _ s h0 (by decide) h
  have hhigh := expect_run a1 .high .low rest (expect .low s).2 (by rwa [expect_cfg]) (by decide) (by rw [hlow])
  rw [Machine.ack, if_neg (by rw [hlow]; exact ofNat_ne_timeout h0),
    if_neg (by rw [hhigh]; exact ofNat_ne_timeout h1), hhigh]
  exact ⟨rfl, rfl⟩

theorem captureLow_run {s : State} {n : Nat} {rest : List Level} (i : Fin 40) (hn : n < s.cfg.maxc)
    (h : s.line = List.replicate n Level.low ++ Level.high :: rest) :
    (captureLow s i).line = rest ∧ (captureLow s i).dur = setDurLow s.dur i (BitVec.ofNat 32 n) := by
  rw [captureLow, expect_run n .low .high rest s hn (by decide) h]
  exact ⟨rfl, rfl⟩

theorem captureHigh_run {s : State} {n : Nat} {rest : List Level} (i : Fin 40) (hn : n < s.cfg.maxc)
    (h : s.line = List.replicate n Level.high ++ Level.low :: rest) :
    (captureHigh s i).line = rest ∧ (captureHigh s i).dur = setDurHigh s.dur i (BitVec.ofNat 32 n) := by
  rw [captureHigh, expect_run n .high .low rest s hn (by decide) h]
  exact ⟨rfl, rfl⟩

/-! ### The capture of all bits -/

section Capture

variable {lo hi : Fin 40 → Nat}

/-- What is left of the two pulses of bit `i` when the first sample of its LOW pulse has been consumed, with the sample
that ends its HIGH pulse (R173). -/
def bitSamples (lo hi : Fin 40 → Nat) (i : Fin 40) : List Level :=
  List.replicate (lo i) Level.low ++ Level.high :: (List.replicate (hi i) Level.high ++ [Level.low])

/-- The pulses of the bits, cut where the captures cut them. -/
theorem flatMap_pulses (lo hi : Fin 40 → Nat) (is : List (Fin 40)) :
    is.flatMap (fun i => List.replicate (lo i + 1) Level.low ++ List.replicate (hi i + 1) Level.high) ++ [Level.low]
      = Level.low :: is.flatMap (bitSamples lo hi) := by
  induction is with
  | nil => rfl
  | cons i is ih =>
    rw [List.flatMap_cons, List.append_assoc, ih]
    simp [bitSamples, List.replicate_succ]

theorem frameScript_eq (a0 a1 : Nat) (lo hi : Fin 40 → Nat) :
    frameScript a0 a1 lo hi = List.replicate a0 Level.low ++
      Level.high :: (List.replicate a1 Level.high ++ Level.low :: bitIndices.flatMap (bitSamples lo hi)) := by
  rw [frameScript, List.append_assoc, flatMap_pulses]
  simp [List.replicate_succ]

theorem captureBit_cfg (s : State) (i : Fin 40) : (captureBit s i).cfg = s.cfg := by simp [captureBit]

theorem captureBit_run {s : State} {i : Fin 40} {rest : List Level} (hlo : lo i < s.cfg.maxc) (hhi : hi i < s.cfg.maxc)
    (h : s.line = bitSamples lo hi i ++ rest) :
    (captureBit s i).line = rest ∧
    (captureBit s i).dur = setDurHigh (setDurLow s.dur i (BitVec.ofNat 32 (lo i))) i (BitVec.ofNat 32 (hi i)) := by
  obtain ⟨hlineLow, hdurLow⟩ := captureLow_run i hlo (h.trans (List.append_assoc _ _ _))
  obtain ⟨hlineHigh, hdurHigh⟩ := captureHigh_run (s := captureLow s i) (n := hi i) (rest := rest) i
    (by rwa [captureLow_cfg]) (hlineLow.trans (by simp))
  exact ⟨hlineHigh, hdurHigh.trans (by rw [hdurLow])⟩

theorem captureBits_cons (i : Fin 40) (is : List (Fin 40)) (s : State) :
    captureBits (i :: is) s = captureBits is (captureBit s i) := rfl

/-- The captures of the bits `is` measure their pulses, and consume no other sample (R145, R173). -/
theorem captureBits_run (is : List (Fin 40)) {s : State} {rest : List Level} (hlo : ∀ i, lo i < s.cfg.maxc)
    (hhi : ∀ i, hi i < s.cfg.maxc) (h : s.line = is.flatMap (bitSamples lo hi) ++ rest) :
    (captureBits is s).line = rest ∧
    (∀ j, durLow (captureBits is s).dur j = if j ∈ is then BitVec.ofNat 32 (lo j) else durLow s.dur j) ∧
    ∀ j, durHigh (captureBits is s).dur j = if j ∈ is then BitVec.ofNat 32 (hi j) else durHigh s.dur j := by
  induction is generalizing s with
  | nil => simpa [captureBits] using h
  | cons i is ih =>
    obtain ⟨hline, hdur⟩ := captureBit_run (hlo i) (hhi i)
      (h.trans (by rw [List.flatMap_cons, List.append_assoc]))
    have hcfg := captureBit_cfg s i
    obtain ⟨hrest, hlows, hhighs⟩ := ih (s := captureBit s i) (by rwa [hcfg]) (by rwa [hcfg]) hline
    refine ⟨hrest, fun j => ?_, fun j => ?_⟩
    · rw [captureBits_cons, hlows, hdur, durLow_setDurHigh, durLow_setDurLow]
      exact ite_mem_cons (fun k => BitVec.ofNat 32 (lo k)) _ i j is
    · rw [captureBits_cons, hhighs, hdur, durHigh_setDurHigh, durHigh_setDurLow]
      exact ite_mem_cons (fun k => BitVec.ofNat 32 (hi k)) _ i j is

/-- The forty pairs of durations of `d` are the counts `lo` and `hi`. -/
def DurationsAre (d : Vector Word 80) (lo hi : Fin 40 → Nat) : Prop :=
  ∀ i, durLow d i = BitVec.ofNat 32 (lo i) ∧ durHigh d i = BitVec.ofNat 32 (hi i)

theorem capture_run {s : State} {rest : List Level} (hlo : ∀ i, lo i < s.cfg.maxc) (hhi : ∀ i, hi i < s.cfg.maxc)
    (h : s.line = bitIndices.flatMap (bitSamples lo hi) ++ rest) :
    (capture s).line = rest ∧ DurationsAre (capture s).dur lo hi := by
  obtain ⟨hline, hlows, hhighs⟩ := captureBits_run bitIndices hlo hhi h
  rw [capture_eq_captureBits]
  exact ⟨hline, fun i => ⟨(hlows i).trans (if_pos (mem_bitIndices i)), (hhighs i).trans (if_pos (mem_bitIndices i))⟩⟩

/-- Counts below the bound leave no sentinel (R88). -/
theorem DurationsAre.anyTimeout {d : Vector Word 80} (h : DurationsAre d lo hi) {c : Config} (hlo : ∀ i, lo i < c.maxc)
    (hhi : ∀ i, hi i < c.maxc) : anyTimeout d = false := by
  have hreal : ∀ i, durLow d i ≠ Config.timeout ∧ durHigh d i ≠ Config.timeout := fun i => by
    rw [(h i).1, (h i).2]
    exact ⟨ofNat_ne_timeout (hlo i), ofNat_ne_timeout (hhi i)⟩
  simp [Machine.anyTimeout, hreal]

/-- Counts below the bound are compared as they are (R147). -/
theorem DurationsAre.bitValue {d : Vector Word 80} (h : DurationsAre d lo hi) {c : Config} (hlo : ∀ i, lo i < c.maxc)
    (hhi : ∀ i, hi i < c.maxc) (i : Fin 40) : bitValue d i = decide (lo i < hi i) := by
  have hlo32 := (hlo i).trans (Machine.Config.maxc_lt c)
  have hhi32 := (hhi i).trans (Machine.Config.maxc_lt c)
  rw [Machine.bitValue, (h i).1, (h i).2, BitVec.toNat_ofNat, BitVec.toNat_ofNat, Nat.mod_eq_of_lt hlo32,
    Nat.mod_eq_of_lt hhi32]

/-- The exchange on the script of a frame (R140, R145 to R149): it consumes the script, stores the durations and the
frame, and answers with the checksum's result. -/
theorem xfer_run {s : State} {a0 a1 : Nat} {rest : List Level} {f : Vector Byte 5} (h0 : a0 < s.cfg.maxc)
    (h1 : a1 < s.cfg.maxc) (hlo : ∀ i, lo i < s.cfg.maxc) (hhi : ∀ i, hi i < s.cfg.maxc)
    (h : s.line = frameScript a0 a1 lo hi ++ rest) (hf : ∀ i, wireBit f i = decide (lo i < hi i)) :
    (xfer s).1 = checksumOk f ∧ (xfer s).2.frame = f ∧ (xfer s).2.line = rest ∧ DurationsAre (xfer s).2.dur lo hi := by
  have hscript : (opened s).line = List.replicate a0 Level.low ++
      Level.high :: (List.replicate a1 Level.high ++ Level.low :: (bitIndices.flatMap (bitSamples lo hi) ++ rest)) := by
    rw [opened, h, frameScript_eq]
    simp only [List.append_assoc, List.cons_append]
  obtain ⟨hpass, hackLine⟩ := ack_run (s := opened s) h0 h1 hscript
  have hcfg : (Machine.ack (opened s)).2.cfg = s.cfg := by
    obtain ⟨vs, hp, -⟩ := ack_polls (opened s)
    exact hp.cfg
  rw [← hcfg] at hlo hhi
  obtain ⟨hline, hdur⟩ := capture_run hlo hhi hackLine
  have hframe : decodeFrame (capture (Machine.ack (opened s)).2).dur (Vector.replicate 5 0) = f :=
    frame_ext fun i => by rw [wireBit_decodeFrame, hdur.bitValue hlo hhi, hf]
  rw [xfer_decoded s hpass (hdur.anyTimeout hlo hhi), hframe]
  -- opaque from here on: a look inside would unroll the forty captures
  generalize capture (Machine.ack (opened s)).2 = t at hline hdur
  exact ⟨rfl, rfl, hline, hdur⟩

end Capture

/-- Settles O58: the fresh path runs `xfer_run` and answers from the frame it stores. -/
theorem scriptedExchangeReadsFrame : Obligations.ScriptedExchangeReadsFrame := by
  intro s a0 a1 lo hi rest f hp hb hg h0 h1 hlo hhi hline hf
  obtain ⟨hok, hframe, hrest, hdur⟩ :=
    xfer_run (s := { sampled s with lastMs := nowOf s }) h0 h1 hlo hhi hline hf
  refine ⟨_, exec_read_fresh hp hb hg, ?_⟩
  simp only [answered_line, answered_lastMs, answered_frame, answered_lastOk, answered_rsp, answered_dur, readResponse,
    readFresh, xfer_lastMs, hok, hframe, hrest, true_and]
  exact hdur

end Sys2Proof.Proofs
end

section
/-! SUPPORT. What every step keeps: the critical section in its phases (R252), the checked frame (R33 c), the released
line (R251) and the bound block (R26). Each invariant is one case split over `Steps`; the cases are grouped by why they
keep it. -/

namespace Sys2Proof.Proofs

open Sys2Proof.Machine Sys2Proof.Safety

/-! ### The critical section -/

/-- A step that neither moves `CRIT` nor enters or leaves the phases of the critical section. -/
theorem critMatches_of_kept {s t : State} (hm : CritMatches s) (hc : t.crit = s.crit)
    (hp : critOpen t.phase = critOpen s.phase) : CritMatches t :=
  hc.trans (hm.trans hp.symm)

/-- `START_REL` opens the critical section; the two timeouts of the acknowledgment, the last capture and a fresh `READ`
performed whole leave it closed; every other row stays on its side (R143, R146). -/
theorem steps_keeps_critMatches {s t : State} (h : Steps s t) (hm : CritMatches s) : CritMatches t := by
  cases h with
  | reset | startRel | ackLowFail | ackHighFail | capHighLast => rfl
  | readFresh => exact readFresh_crit _ _
  | refuse _ _ _ hp | construct _ _ _ _ hp | begin _ _ _ hp | readCached _ _ _ hp | getspecs _ _ _ hp | wait _ hp
  | acceptRefused _ _ _ hp | acceptConstruct _ _ _ _ hp | acceptBegin _ _ _ hp | acceptRead _ _ _ hp
  | acceptSpecs _ _ _ hp | gateCached _ hp | gateFresh _ hp | clear _ hp | startPre _ hp | startLow _ hp
  | ackLowPass _ hp | ackHighPass _ hp | capLow _ hp | capHighMore _ _ hp | decodeFail _ hp | decodeMore _ _ hp
  | decodeLast _ hp | csum _ hp | respond _ hp =>
    exact critMatches_of_kept hm (by simp [packCurrent]) (by rw [hp]; rfl)

/-- A response is delivered in `IDLE`, and a hardware reset goes there without one (R92, R110, R240). -/
theorem step_idle_of_rspValid {s t : State} (h : step s = .next t) (hv : t.rspValid = true) : t.phase = .idle := by
  cases hr : s.rst with
  | true =>
    obtain rfl : s.hardReset = t := Host.Outcome.next.inj ((step_reset s hr).symm.trans h)
    rfl
  | false => exact (oneResponsePerCommand s t hr h).2 hv

/-- Settles O47, by `steps_keeps_critMatches`; a response is delivered in `IDLE`, outside the critical section. -/
theorem stepKeepsCritMatched : Obligations.StepKeepsCritMatched := by
  intro s t hm h
  have hm' := steps_keeps_critMatches (step_inv h) hm
  refine ⟨hm', fun hv => ?_⟩
  rw [hm', step_idle_of_rspValid h hv]; rfl

/-! ### The checked frame -/

@[simp] theorem respondTo_lastOk (s : State) (c : Current) : (respondTo s c).lastOk = s.lastOk := rfl
@[simp] theorem respondTo_frame (s : State) (c : Current) : (respondTo s c).frame = s.frame := rfl
@[simp] theorem bindPin_lastOk (pin : BitVec 8) (s : State) : (bindPin pin s).lastOk = s.lastOk := rfl
@[simp] theorem bindPin_frame (pin : BitVec 8) (s : State) : (bindPin pin s).frame = s.frame := rfl
@[simp] theorem beginEffect_lastOk (s : State) : (beginEffect s).lastOk = s.lastOk := by simp [beginEffect]
@[simp] theorem beginEffect_frame (s : State) : (beginEffect s).frame = s.frame := by simp [beginEffect]

/-- A failed exchange claims nothing of the frame. -/
theorem frameChecked_of_failed {t : State} (h : t.lastOk = false) : FrameChecked t := fun hok =>
  absurd hok (by simp [h])

/-- A step that leaves `LAST_OK` and `FRAME` alone, from any phase but `DECODE` and `CSUM`. -/
theorem frameChecked_of_kept {s t : State} {p : Phase} (hf : FrameChecked s) (hp : s.phase = p) (hd : p ≠ .decode)
    (hc : p ≠ .csum) (hok : t.lastOk = s.lastOk) (hframe : t.frame = s.frame) : FrameChecked t := fun hok' _ _ => by
  rw [hframe]
  exact hf (hok.symm.trans hok') (hp.trans_ne hd) (hp.trans_ne hc)

theorem checksumOk_zeroFrame : checksumOk (Vector.replicate 5 0) = true := by decide

/-- A fresh `READ` succeeds only with a frame whose checksum holds (R149). -/
theorem checksumOk_of_readFresh (t : Word) (s : State) (h : (readFresh t s).lastOk = true) :
    checksumOk (readFresh t s).frame = true := by
  obtain ⟨vs, -, -, -, -, -, -, hok⟩ := readFresh_cases t s
  exact hok h

/-- What ends an exchange sets `LAST_OK` to 0 or to the test of the frame it leaves; `CLEAR` leaves the zero frame, whose
checksum holds; the rows that lead to `DECODE` and `CSUM` are exempt; no other row writes `LAST_OK` or `FRAME` (R141,
R149). -/
theorem steps_keeps_frameChecked {s t : State} (h : Steps s t) (hf : FrameChecked s) : FrameChecked t := by
  cases h with
  | reset | ackLowFail | ackHighFail | decodeFail => exact frameChecked_of_failed rfl
  | readFresh => exact fun hok _ _ => checksumOk_of_readFresh _ _ hok
  | clear => exact fun _ _ _ => checksumOk_zeroFrame
  | capHighLast | decodeMore => exact fun _ hd _ => absurd rfl hd
  | decodeLast => exact fun _ _ hc => absurd rfl hc
  | csum => exact fun hok _ _ => hok
  | refuse _ _ _ hp | construct _ _ _ _ hp | begin _ _ _ hp | readCached _ _ _ hp | getspecs _ _ _ hp | wait _ hp
  | acceptRefused _ _ _ hp | acceptConstruct _ _ _ _ hp | acceptBegin _ _ _ hp | acceptRead _ _ _ hp
  | acceptSpecs _ _ _ hp | gateCached _ hp | gateFresh _ hp | startPre _ hp | startLow _ hp | startRel _ hp
  | ackLowPass _ hp | ackHighPass _ hp | capLow _ hp | capHighMore _ _ hp | respond _ hp =>
    exact frameChecked_of_kept hf hp (by decide) (by decide) (by simp) (by simp)

/-- Settles O48, by `steps_keeps_frameChecked`. -/
theorem stepKeepsFrameChecked : Obligations.StepKeepsFrameChecked :=
  fun _ _ hf h => steps_keeps_frameChecked (step_inv h) hf

/-! ### The released line -/

@[simp] theorem respondTo_mode (s : State) (c : Current) : (respondTo s c).mode = s.mode := rfl
@[simp] theorem bindPin_mode (pin : BitVec 8) (s : State) : (bindPin pin s).mode = s.mode := rfl
theorem beginEffect_mode (s : State) : (beginEffect s).mode = .inputPullup := by simp [beginEffect]

theorem lineReleased_of_not_output {t : State} {m : PinMode} (h : t.mode = m) (hm : m ≠ .output) : LineReleased t :=
  fun hout => absurd (h.symm.trans hout) hm

/-- A step that leaves the pin's mode alone, from any phase but `START_REL`. -/
theorem lineReleased_of_kept {s t : State} {p : Phase} (hl : LineReleased s) (hp : s.phase = p) (hne : p ≠ .startRel)
    (hm : t.mode = s.mode) : LineReleased t := fun hout =>
  absurd (hp.symm.trans (hl (hm.symm.trans hout))) hne

/-- `START_LOW` makes the pin an output and goes to `START_REL`, which releases it; every other row that sets the mode
makes it an input (R142, R251). -/
theorem steps_keeps_lineReleased {s t : State} (h : Steps s t) (hl : LineReleased s) : LineReleased t := by
  cases h with
  | startLow => exact fun _ => rfl
  | reset => exact lineReleased_of_not_output rfl (m := .unset) (by decide)
  | startPre | startRel => exact lineReleased_of_not_output rfl (m := .inputPullup) (by decide)
  | begin | acceptBegin => exact lineReleased_of_not_output (beginEffect_mode _) (by decide)
  | readFresh => exact lineReleased_of_not_output (readFresh_mode _ _) (by decide)
  | refuse _ _ _ hp | construct _ _ _ _ hp | readCached _ _ _ hp | getspecs _ _ _ hp | wait _ hp
  | acceptRefused _ _ _ hp | acceptConstruct _ _ _ _ hp | acceptRead _ _ _ hp | acceptSpecs _ _ _ hp
  | gateCached _ hp | gateFresh _ hp | clear _ hp | ackLowFail _ hp | ackLowPass _ hp | ackHighFail _ hp
  | ackHighPass _ hp | capLow _ hp | capHighMore _ _ hp | capHighLast _ hp | decodeFail _ hp | decodeMore _ _ hp
  | decodeLast _ hp | csum _ hp | respond _ hp =>
    exact lineReleased_of_kept hl hp (by decide) (by simp [packCurrent])

/-- The polling phases are entered through `START_REL`, which makes the pin an input, and no row inside them sets the mode
(R54, R142). -/
theorem steps_keeps_pollsAsInput {s t : State} (h : Steps s t) (hi : PollsAsInput s) : PollsAsInput t := by
  cases h with
  | startRel => exact fun _ => rfl
  | ackLowPass _ hp | ackHighPass _ hp | capLow _ hp | capHighMore _ _ hp =>
    exact fun _ => by simpa using hi (by rw [hp]; rfl)
  | _ => exact fun hopen => absurd hopen Bool.false_ne_true

/-- The only row that leaves `IDLE` for an exchange is the acceptance of `READ` in a bound block, and no row of the
exchange writes `BOUND` (R26, R110). -/
theorem steps_keeps_exchangeBound {s t : State} (h : Steps s t) (hb : ExchangeBound s) : ExchangeBound t := by
  cases h with
  | acceptRead _ _ _ _ _ _ _ hbound => exact fun _ _ => hbound
  | gateFresh _ hp | clear _ hp | startPre _ hp | startLow _ hp | startRel _ hp | ackLowPass _ hp | ackHighPass _ hp
  | capLow _ hp | capHighMore _ _ hp | capHighLast _ hp | decodeMore _ _ hp | decodeLast _ hp =>
    exact fun _ _ => by simpa [packCurrent] using hb (hp.trans_ne (by decide)) (hp.trans_ne (by decide))
  | reset | refuse | construct | begin | readCached | readFresh | getspecs | wait | respond =>
    exact fun hidle _ => absurd rfl hidle
  | acceptRefused | acceptConstruct | acceptBegin | acceptSpecs | gateCached | ackLowFail | ackHighFail | decodeFail
  | csum => exact fun _ hrespond => absurd rfl hrespond

/-- Settles O49: each of the three predicates is kept by itself. -/
theorem stepKeepsLineReleased : Obligations.StepKeepsLineReleased := by
  rintro s t ⟨hl, hi, hb⟩ h
  have hs := step_inv h
  exact ⟨steps_keeps_lineReleased hs hl, steps_keeps_pollsAsInput hs hi, steps_keeps_exchangeBound hs hb⟩

end Sys2Proof.Proofs
end

section
/-! SUPPORT. Proofs of statements about the exchange (41_protocol_exchange.md): the decoded frame, the outcomes of `XFER`,
and the rows of its phases in the transition table (R153). -/

namespace Sys2Proof.Proofs

open Sys2Proof.Machine Sys2Proof.Safety

/-! ### The decoded frame -/

/-- Byte `k` of the frame begins at bit 8 (4 − `k`) of the 40-bit number (R85). -/
theorem getLsbD_frameNumber (f : Vector Byte 5) {k j : Nat} (hk : k < 5) (hj : j < 8) :
    (frameNumber f).getLsbD (8 * (4 - k) + j) = f[k].getLsbD j := by
  simp only [frameNumber, BitVec.getLsbD_append]
  interval_cases k <;> simp (disch := omega) [if_neg, Nat.sub_sub, hj]

/-- Settles O44: `wireBit_decodeFrame` for the places, `getLsbD_frameNumber` for the 40-bit number. -/
theorem decodePacksHighBitFirst : Obligations.DecodePacksHighBitFirst := by
  refine ⟨wireBit_decodeFrame, fun f i => ?_⟩
  have hpos : 39 - i.val = 8 * (4 - i.val / 8) + (7 - i.val % 8) := by omega
  rw [hpos]
  exact getLsbD_frameNumber f (by omega) (by omega)

/-- The comparison of a bit's durations does not see a common factor (R147). -/
theorem bitValue_of_scaled {d e : Vector Word 80} {k : Nat} (hk : 0 < k)
    (h : ∀ j : Fin 80, e[j].toNat = k * d[j].toNat) (i : Fin 40) : bitValue e i = bitValue d i := by
  have hlow : (durLow e i).toNat = k * (durLow d i).toNat := h ⟨2 * i.val, by omega⟩
  have hhigh : (durHigh e i).toNat = k * (durHigh d i).toNat := h ⟨2 * i.val + 1, by omega⟩
  rw [bitValue, bitValue, hlow, hhigh, decide_eq_decide]
  exact Nat.mul_lt_mul_left hk

/-- Settles O45: the frames agree bit by bit. -/
theorem decodeIsScaleInvariant : Obligations.DecodeIsScaleInvariant := by
  intro d e k hk h f
  exact frame_ext fun i => by rw [wireBit_decodeFrame, wireBit_decodeFrame, bitValue_of_scaled hk h]

/-! ### The outcomes of `XFER` -/

/-- Handshake timeout: the frame is as `CLEAR` left it, and no duration is recorded (R212). -/
theorem xfer_of_not_ackPasses {s : State} (h : ¬ ackPasses s) :
    (xfer s).1 = false ∧ (xfer s).2.frame = Vector.replicate 5 0 ∧ (xfer s).2.dur = s.dur := by
  have hfail : (Machine.ack (opened s)).1 = false :=
    Bool.eq_false_of_not_eq_true fun hpass => h ((ackPasses_iff (opened s)).2 hpass)
  obtain ⟨vs, hp, -⟩ := ack_polls (opened s)
  rw [xfer_ackFail s hfail]
  exact ⟨rfl, hp.frame, hp.dur⟩

/-- After the acknowledgment a sentinel leaves the frame zero; else it is the decoded one, and the checksum decides (R149,
R213, R214). -/
theorem xfer_of_ackPasses {s : State} (h : ackPasses s) :
    (anyTimeout (xfer s).2.dur = true → (xfer s).1 = false ∧ (xfer s).2.frame = Vector.replicate 5 0) ∧
    (anyTimeout (xfer s).2.dur = false →
      (xfer s).1 = checksumOk (xfer s).2.frame ∧
      (xfer s).2.frame = decodeFrame (xfer s).2.dur (Vector.replicate 5 0)) := by
  have hpass : (Machine.ack (opened s)).1 = true := (ackPasses_iff (opened s)).1 h
  obtain ⟨vs, hp, -⟩ := ack_polls (opened s)
  obtain ⟨ws, hq, -⟩ := capture_measured (Machine.ack (opened s)).2
  have hfail := xfer_bitFail s hpass
  have hok := xfer_decoded s hpass
  have hframe := hq.frame.trans hp.frame
  -- opaque from here on: a look inside would unroll the forty captures
  generalize capture (Machine.ack (opened s)).2 = c at hfail hok hframe
  cases hx : anyTimeout c.dur with
  | true =>
    rw [hfail hx]
    exact ⟨fun _ => ⟨rfl, hframe⟩, fun hn => absurd (hn.symm.trans hx) (by decide)⟩
  | false =>
    rw [hok hx]
    exact ⟨fun hy => absurd (hy.symm.trans hx) (by decide), fun _ => ⟨rfl, rfl⟩⟩

theorem not_hasTimeout_iff (d : Vector Word 80) : ¬ hasTimeout d ↔ anyTimeout d = false := by
  simp [← anyTimeout_iff]

/-- Settles O36: `xfer_cases` for what is left unchanged, and the outcome by the acknowledgment and the sentinel test. -/
theorem xferOutcomes : Obligations.XferOutcomes := by
  intro s
  obtain ⟨vs, hsame, -⟩ := xfer_cases s
  refine ⟨{ (xfer s).2 with ret := .ok (xfer s).1 }, (xfer s).1, rfl, ?_, fun hn => ?_, fun hy ht => ?_,
    fun hy ht => ?_⟩
  · exact congrArg (fun t : State => { t with ret := .ok (xfer s).1 }) hsame
  · obtain ⟨hok, hframe, hdur⟩ := xfer_of_not_ackPasses hn
    exact ⟨hok, fun k => by simp [hframe], hdur⟩
  · obtain ⟨hok, hframe⟩ := (xfer_of_ackPasses hy).1 ((anyTimeout_iff _).2 ht)
    exact ⟨hok, fun k => by simp [hframe]⟩
  · obtain ⟨hok, hframe⟩ := (xfer_of_ackPasses hy).2 ((not_hasTimeout_iff _).1 ht)
    refine ⟨fun i => ?_, ?_⟩
    · exact (congrArg (wireBit · i) hframe).trans (wireBit_decodeFrame _ _ i)
    · rw [hok, checksumOk_iff]

/-! ### The rows of the transition table -/

/-- Settles O26: the frame becomes the zero frame. -/
theorem clearZeroesFrame : Obligations.ClearZeroesFrame :=
  fun _ => ⟨_, rfl, fun k => Vector.getElem_replicate k.isLt, rfl⟩

/-- Settles O27: the events of each part, one after another. -/
theorem startPhasesEmitSignal : Obligations.StartPhasesEmitSignal := by
  intro s
  refine ⟨?_, ?_, ?_⟩
  · simp [exec, execStartPre, startPrePart, goto, State.pinMode, State.delayMs, State.emit]
  · simp [exec, execStartLow, startLowPart, goto, State.pinMode, State.lineWrite, State.delayMs, State.emit,
      Config.startLowMs]
  · simp [exec, execStartRel, startRelPart, goto, State.pinMode, State.delayUs, State.critEnter, State.emit,
      Config.settleUs]

/-- After one `EXPECT` the state is `polled` (R174). -/
theorem expect_snd (l : Level) (s : State) : (expect l s).2 = polled s l := expect_same l s

/-- Settles O28, by the sentinel test on the one `EXPECT` of each phase. -/
theorem ackPhaseTransitions : Obligations.AckPhaseTransitions := by
  intro s
  simp only [exec, execAckLow, execAckHigh, expect_snd]
  exact ⟨rfl, rfl⟩

/-- Settles O29, by whether `IDX` is below 39. -/
theorem capturePhaseTransitions : Obligations.CapturePhaseTransitions := by
  intro s
  simp only [exec, execCapLow, execCapHigh, captureLow, captureHigh, expect_snd]
  refine ⟨rfl, fun j hj => ?_, fun hlast => ?_⟩
  · have hlt : s.idx.val < 39 := by omega
    have hnext : (⟨s.idx.val + 1, by omega⟩ : Fin 40) = j := Fin.ext hj.symm
    rw [dif_pos hlt, hnext]; rfl
  · have hidx : s.idx = 39 := Fin.ext hlast
    rw [dif_neg (by omega), hidx]; rfl

/-- Settles O30: on a sentinel the exchange fails, else bit `IDX` is packed, by `wireBit_packBit`. -/
theorem decodePhaseTransitions : Obligations.DecodePhaseTransitions := by
  intro s
  simp only [← anyTimeout_iff, exec, execDecode]
  refine ⟨fun hx => by rw [if_pos hx]; rfl, fun hx => ?_⟩
  have hbit : ∀ i, wireBit (packCurrent s).frame i = if i = s.idx then bitValue s.dur i else wireBit s.frame i := by
    intro i
    rw [packCurrent, decodeBit, wireBit_packBit]
    split
    · next h => rw [h]
    · rfl
  rw [if_neg hx]
  by_cases hlt : s.idx.val < 39
  · rw [dif_pos hlt]
    exact ⟨_, rfl, rfl, hbit, fun _ => ⟨rfl, rfl⟩, fun hlast => by omega⟩
  · rw [dif_neg hlt]
    exact ⟨_, rfl, rfl, hbit, fun h => absurd h hlt, fun _ => ⟨rfl, rfl⟩⟩

/-- Settles O31, by `checksumOk_iff`. -/
theorem checksumPhaseTest : Obligations.ChecksumPhaseTest :=
  fun s => ⟨_, rfl, rfl, checksumOk_iff s.frame⟩

end Sys2Proof.Proofs
end

section
/-! SUPPORT. Proofs of statements about the Pulse Timer (42_pulse_timer.md): what `EXPECT` returns on any line, what it
leaves alone, and the sample between two pulses. -/

namespace Sys2Proof.Proofs

open Sys2Proof.Machine Sys2Proof.Safety

/-- `EXPECT` performed as an instruction leaves its duration in `ret` (log 8). -/
theorem exec_expect (level : Level) (s : State) :
    exec (.expect level) s = .next { (expect level s).2 with ret := .duration (expect level s).1 } := rfl

/-- A count below the bound fits in a duration (R88). -/
theorem toNat_ofNat_of_lt_maxc {c : Config} {n : Nat} (h : n < c.maxc) : (BitVec.ofNat 32 n).toNat = n :=
  (BitVec.toNat_ofNat n 32).trans (Nat.mod_eq_of_lt (h.trans (Config.maxc_lt c)))

/-! ### A run of answers -/

/-- A run below the bound is measured, and the answer that ends it is the last one read (R171). -/
theorem exec_expect_measures {s : State} {level : Level} {n : Nat} (hn : n < s.cfg.maxc)
    (hrun : ∀ k < n, upcoming s k = level) (hend : upcoming s n ≠ level) :
    exec (.expect level) s = .next
      { consumed s (n + 1) (List.replicate n level ++ [upcoming s n]) with
        cnt := BitVec.ofNat 32 n, ret := .duration (BitVec.ofNat 32 n) } := by
  rw [exec_expect, expect_measures n level s hn hrun hend]

/-- A run that reaches the bound is a `TIMEOUT`, with no answer read after it (R171, R172). -/
theorem exec_expect_timesOut {s : State} {level : Level} (hrun : ∀ k < s.cfg.maxc, upcoming s k = level) :
    exec (.expect level) s = .next
      { consumed s s.cfg.maxc (List.replicate s.cfg.maxc level) with
        cnt := BitVec.ofNat 32 s.cfg.maxc, ret := .duration 0xFFFFFFFF } := by
  rw [exec_expect, expect_timesOut level s hrun]; rfl

/-- Settles O33: the two lengths of a run, and a count below the bound is neither the sentinel nor cut off. -/
theorem expectMeasuresRun : Obligations.ExpectMeasuresRun :=
  ⟨fun _ _ _ => exec_expect_measures, fun _ _ => exec_expect_timesOut,
    fun _ _ hn => ⟨ofNat_ne_timeout hn, toNat_ofNat_of_lt_maxc hn⟩⟩

/-- Settles O34: on any line the answers leave `level` before the bound (`first_break`) or reach it. -/
theorem expectIsBoundedLeaf : Obligations.ExpectIsBoundedLeaf := by
  intro s level
  rcases first_break (upcoming s) level s.cfg.maxc with ⟨n, hn, hrun, hend⟩ | hrun
  · have hcount := toNat_ofNat_of_lt_maxc hn
    exact ⟨_, BitVec.ofNat 32 n, List.replicate n level ++ [upcoming s n], exec_expect_measures hn hrun hend, rfl, rfl,
      by simp, by simpa using hn, .inr ⟨by rwa [hcount], by simp [hcount], rfl⟩⟩
  · have hlength : (List.replicate s.cfg.maxc level).length = s.cfg.maxc := List.length_replicate
    exact ⟨_, _, List.replicate s.cfg.maxc level, exec_expect_timesOut hrun, rfl, rfl,
      (Config.maxc_pos s.cfg).trans_eq hlength.symm, hlength.le, .inl ⟨rfl, rfl⟩⟩

/-! ### Two pulses one after the other -/

/-- `EXPECT` on a scripted pulse consumes the pulse and the answer that ends it, and leaves the rest (R173). -/
theorem exec_expect_run {s : State} {level v : Level} {n : Nat} {rest : List Level} (hn : n < s.cfg.maxc)
    (hv : v ≠ level) (hline : s.line = List.replicate n level ++ v :: rest) :
    ∃ t, exec (.expect level) s = .next t ∧ t.ret = .duration (BitVec.ofNat 32 n) ∧ t.line = rest ∧ t.cfg = s.cfg := by
  rw [exec_expect, expect_run n level v rest s hn hv hline]
  exact ⟨_, rfl, rfl, rfl, rfl⟩

/-- Settles O35: the LOW pulse is ended by the first HIGH, so the HIGH pulse begins with one HIGH fewer. -/
theorem endingSampleIsConsumed : Obligations.EndingSampleIsConsumed := by
  intro s a b rest ha hb hb1 hline
  obtain ⟨m, rfl⟩ : ∃ m, b = m + 1 := ⟨b - 1, by omega⟩
  have hlow : s.line = List.replicate a .low ++ .high :: (List.replicate m .high ++ .low :: rest) := by
    rw [hline, List.replicate_succ, List.append_assoc, List.cons_append]
  obtain ⟨t, hst, htret, htline, htcfg⟩ := exec_expect_run ha (by decide) hlow
  obtain ⟨u, htu, huret, huline, -⟩ := exec_expect_run (s := t) (by rw [htcfg]; omega) (by decide) htline
  exact ⟨t, u, hst, htret, htu, huret, huline⟩

end Sys2Proof.Proofs
end

section
/-! SUPPORT. Facts about the binary32 arithmetic (R185, R187): the order of the patterns, and which pattern a magnitude
is rounded to. -/

namespace Sys2Proof.Proofs

open Sys2Proof.Machine

/-! ### The magnitude of a pattern -/

/-- The magnitude of a pattern without its sign bit, in units of 2^−149; `f32Mag_eq` ties it to the model. -/
def patternMag (p : Nat) : Nat :=
  if p / 2 ^ 23 = 0 then p else (2 ^ 23 + p % 2 ^ 23) * 2 ^ (p / 2 ^ 23 - 1)

theorem f32Mag_eq (x : F32) : f32Mag x = patternMag (x.toNat % 2 ^ 31) := by
  have hexp : x.toNat % 2 ^ 31 / 2 ^ 23 = f32Exp x := by unfold f32Exp; omega
  have hfrac : x.toNat % 2 ^ 31 % 2 ^ 23 = f32Frac x := by unfold f32Frac; omega
  rw [f32Mag, patternMag, hexp, hfrac]
  by_cases h : f32Exp x = 0
  · rw [if_pos h, if_pos h]
    omega
  · rw [if_neg h, if_neg h]

/-- A significand `s` of 24 bits at the exponent `k`: the pattern that adds the two has the magnitude `s` × 2^k. With
`s` = 2^24 the carry has moved the exponent. -/
theorem patternMag_add {k s : Nat} (h : 2 ^ 23 ≤ s ∨ k = 0) (hs : s ≤ 2 ^ 24) :
    patternMag (k * 2 ^ 23 + s) = s * 2 ^ k := by
  unfold patternMag
  rcases Nat.lt_or_ge s (2 ^ 23) with hlt | hge
  · obtain rfl : k = 0 := by omega
    rw [if_pos (by omega)]
    omega
  rcases Nat.lt_or_eq_of_le hs with hlt | rfl
  · have hdiv : (k * 2 ^ 23 + s) / 2 ^ 23 = k + 1 := by omega
    have hmod : 2 ^ 23 + (k * 2 ^ 23 + s) % 2 ^ 23 = s := by omega
    rw [if_neg (by omega), hdiv, hmod, Nat.add_sub_cancel]
  · have hdiv : (k * 2 ^ 23 + 2 ^ 24) / 2 ^ 23 = k + 1 + 1 := by omega
    have hmod : (k * 2 ^ 23 + 2 ^ 24) % 2 ^ 23 = 0 := by omega
    rw [if_neg (by omega), hdiv, hmod, Nat.add_sub_cancel, pow_succ]
    omega

/-- Every pattern without its sign is an exponent and a significand of 24 bits added. -/
theorem exists_significand (p : Nat) :
    ∃ k s, p = k * 2 ^ 23 + s ∧ (2 ^ 23 ≤ s ∨ k = 0) ∧ s < 2 ^ 24 :=
  ⟨p / 2 ^ 23 - 1, p - (p / 2 ^ 23 - 1) * 2 ^ 23, by omega, by omega, by omega⟩

theorem patternMag_strictMono : StrictMono patternMag := by
  refine strictMono_nat_of_lt_succ fun p => ?_
  obtain ⟨k, s, rfl, hk, hs⟩ := exists_significand p
  rw [patternMag_add hk hs.le, Nat.add_assoc, patternMag_add (hk.imp_left (by omega)) hs]
  exact Nat.mul_lt_mul_of_pos_right (Nat.lt_succ_self s) (Nat.two_pow_pos k)

/-! ### The neighbours of a magnitude -/

theorem bitLength_le_iff (m n : Nat) : bitLength m ≤ n ↔ m < 2 ^ n := by
  unfold bitLength
  split
  next h => simp [h]
  next h => exact Nat.log2_lt h

theorem lt_bitLength_iff (m n : Nat) : n < bitLength m ↔ 2 ^ n ≤ m := by
  rw [← not_le, bitLength_le_iff, not_lt]

/-- The pattern of `m` without the bits below the last kept one. -/
def floorPattern (m e : Nat) : Nat := (roundPos m e - e) * 2 ^ 23 + m / 2 ^ roundPos m e

/-- The kept bits are a significand of 24 bits, with a leading one unless they begin at 2^−149. -/
theorem kept_significand (m e : Nat) :
    (2 ^ 23 ≤ m / 2 ^ roundPos m e ∨ roundPos m e - e = 0) ∧ m / 2 ^ roundPos m e < 2 ^ 24 := by
  constructor
  · refine or_iff_not_imp_right.2 fun h => ?_
    have hpos : roundPos m e = bitLength m - 24 := by unfold roundPos at *; omega
    have hlong : 23 + roundPos m e < bitLength m := by omega
    rwa [Nat.le_div_iff_mul_le (Nat.two_pow_pos _), ← pow_add, ← lt_bitLength_iff]
  · rw [Nat.div_lt_iff_lt_mul (Nat.two_pow_pos _), ← pow_add, ← bitLength_le_iff]
    unfold roundPos
    omega

/-- The unit of the last kept bit, split into the unit of the magnitude and the exponent of the pattern. -/
theorem two_pow_roundPos (m e : Nat) : 2 ^ (roundPos m e - e) * 2 ^ e = 2 ^ roundPos m e := by
  have hle : e ≤ roundPos m e := Nat.le_max_right _ _
  rw [← pow_add, Nat.sub_add_cancel hle]

theorem patternMag_floorPattern (m e : Nat) :
    patternMag (floorPattern m e) * 2 ^ e = m / 2 ^ roundPos m e * 2 ^ roundPos m e := by
  obtain ⟨hk, hs⟩ := kept_significand m e
  rw [floorPattern, patternMag_add hk hs.le, Nat.mul_assoc, two_pow_roundPos]

theorem patternMag_floorPattern_succ (m e : Nat) :
    patternMag (floorPattern m e + 1) * 2 ^ e = (m / 2 ^ roundPos m e + 1) * 2 ^ roundPos m e := by
  obtain ⟨hk, hs⟩ := kept_significand m e
  rw [floorPattern, Nat.add_assoc, patternMag_add (hk.imp_left (by omega)) hs, Nat.mul_assoc, two_pow_roundPos]

theorem patternMag_floorPattern_le (m e : Nat) : patternMag (floorPattern m e) * 2 ^ e ≤ m := by
  rw [patternMag_floorPattern]
  exact Nat.div_mul_le_self _ _

theorem lt_patternMag_floorPattern_succ (m e : Nat) : m < patternMag (floorPattern m e + 1) * 2 ^ e := by
  rw [patternMag_floorPattern_succ]
  exact Nat.lt_mul_of_div_lt (Nat.lt_succ_self _) (Nat.two_pow_pos _)

/-- `m` lies past the middle of its two neighbours, or on it with the lower neighbour odd. -/
def RoundsUp (m e : Nat) : Prop :=
  patternMag (floorPattern m e) * 2 ^ e + patternMag (floorPattern m e + 1) * 2 ^ e < 2 * m ∨
  patternMag (floorPattern m e) * 2 ^ e + patternMag (floorPattern m e + 1) * 2 ^ e = 2 * m ∧ floorPattern m e % 2 = 1

/-- Rounding takes the nearer neighbour, and the even pattern of two equally near (R185), up to infinity. -/
theorem roundMag_cases (m e : Nat) :
    RoundsUp m e ∧ roundMag m e = min (floorPattern m e + 1) 0x7F800000 ∨
    ¬ RoundsUp m e ∧ roundMag m e = min (floorPattern m e) 0x7F800000 := by
  have hiff : RoundsUp m e ↔ 2 ^ roundPos m e < 2 * (m % 2 ^ roundPos m e) ∨
      2 * (m % 2 ^ roundPos m e) = 2 ^ roundPos m e ∧ m / 2 ^ roundPos m e % 2 = 1 := by
    have hodd : floorPattern m e % 2 = m / 2 ^ roundPos m e % 2 := by unfold floorPattern; omega
    have hdiv := Nat.div_add_mod' m (2 ^ roundPos m e)
    rw [RoundsUp, hodd, patternMag_floorPattern, patternMag_floorPattern_succ, Nat.succ_mul]
    omega
  by_cases h : RoundsUp m e
  · refine .inl ⟨h, ?_⟩
    simp only [roundMag, roundShift]
    rw [if_pos (hiff.1 h), floorPattern, Nat.add_assoc]
  · refine .inr ⟨h, ?_⟩
    simp only [roundMag, roundShift]
    rw [if_neg (hiff.not.1 h), floorPattern]

/-! ### Rounding a magnitude -/

theorem patternMag_mul_le (e : Nat) {p q : Nat} (h : p ≤ q) : patternMag p * 2 ^ e ≤ patternMag q * 2 ^ e :=
  Nat.mul_le_mul_right _ (patternMag_strictMono.monotone h)

theorem floorPattern_mono {m n : Nat} (e : Nat) (h : m ≤ n) : floorPattern m e ≤ floorPattern n e := by
  by_contra hlt
  have hlt : floorPattern n e + 1 ≤ floorPattern m e := not_le.1 hlt
  have := patternMag_mul_le e hlt
  have := patternMag_floorPattern_le m e
  have := lt_patternMag_floorPattern_succ n e
  omega

theorem roundMag_mono {m n : Nat} (e : Nat) (h : m ≤ n) : roundMag m e ≤ roundMag n e := by
  have hfloor := floorPattern_mono e h
  rcases roundMag_cases m e with ⟨hm, hmr⟩ | ⟨hm, hmr⟩ <;> rcases roundMag_cases n e with ⟨hn, hnr⟩ | ⟨hn, hnr⟩
  · omega
  · have : floorPattern m e ≠ floorPattern n e := by
      intro heq
      unfold RoundsUp at hm hn
      rw [heq] at hm
      omega
    omega
  · omega
  · omega

/-- A magnitude that a pattern has is rounded to that pattern. -/
theorem roundMag_exact {m e : Nat} (h : 2 ^ roundPos m e ∣ m) : roundMag m e = min (floorPattern m e) 0x7F800000 := by
  have hlow : patternMag (floorPattern m e) * 2 ^ e = m := by
    rw [patternMag_floorPattern, Nat.div_mul_cancel h]
  have hhigh := lt_patternMag_floorPattern_succ m e
  rcases roundMag_cases m e with ⟨hup, -⟩ | ⟨-, hr⟩
  · unfold RoundsUp at hup
    omega
  · exact hr

/-- The pattern a magnitude is rounded to is nearest among all patterns, ties going to the even one (R185). -/
theorem roundMag_nearest {m e : Nat} (hfin : roundMag m e < 0x7F800000) (p : Nat) :
    |(m : Int) - (patternMag (roundMag m e) * 2 ^ e : Nat)| ≤ |(m : Int) - (patternMag p * 2 ^ e : Nat)| ∧
    (|(m : Int) - (patternMag (roundMag m e) * 2 ^ e : Nat)| = |(m : Int) - (patternMag p * 2 ^ e : Nat)| →
      patternMag p * 2 ^ e ≠ patternMag (roundMag m e) * 2 ^ e → roundMag m e % 2 = 0) := by
  have hlow := patternMag_floorPattern_le m e
  have hhigh := lt_patternMag_floorPattern_succ m e
  have hside : patternMag p * 2 ^ e ≤ patternMag (floorPattern m e) * 2 ^ e ∨
      patternMag (floorPattern m e + 1) * 2 ^ e ≤ patternMag p * 2 ^ e :=
    (Nat.lt_or_ge (floorPattern m e) p).symm.imp (patternMag_mul_le e) (patternMag_mul_le e)
  simp only [Int.abs_eq_natAbs]
  rcases roundMag_cases m e with ⟨hup, hr⟩ | ⟨hup, hr⟩ <;> unfold RoundsUp at hup
  · obtain hr : roundMag m e = floorPattern m e + 1 := by omega
    rw [hr]
    omega
  · obtain hr : roundMag m e = floorPattern m e := by omega
    rw [hr]
    omega

/-! ### A rounded magnitude with its sign -/

/-- A magnitude with a sign. -/
def withSign (neg : Bool) (n : Nat) : Int := if neg then -(n : Int) else n

theorem f32Val_eq (x : F32) : f32Val x = withSign (f32Neg x) (f32Mag x) := rfl

theorem withSign_mul_two_pow (neg : Bool) (n e : Nat) : withSign neg n * 2 ^ e = withSign neg (n * 2 ^ e) := by
  cases neg <;> simp [withSign]

theorem toNat_f32Pack (neg : Bool) (m e : Nat) :
    (f32Pack neg m e).toNat = if neg then 2 ^ 31 + roundMag m e else roundMag m e := by
  have hle := roundMag_le m e
  rw [f32Pack, BitVec.toNat_ofNat, Nat.mod_eq_of_lt]
  split <;> omega

theorem f32Neg_eq (x : F32) : f32Neg x = decide (2 ^ 31 ≤ x.toNat) := BitVec.msb_eq_decide x

@[simp] theorem f32Neg_f32Pack (neg : Bool) (m e : Nat) : f32Neg (f32Pack neg m e) = neg := by
  have hle := roundMag_le m e
  rw [f32Neg_eq, toNat_f32Pack]
  cases neg
  · simp
    omega
  · simp

@[simp] theorem f32Mag_f32Pack (neg : Bool) (m e : Nat) : f32Mag (f32Pack neg m e) = patternMag (roundMag m e) := by
  have hle := roundMag_le m e
  have hmod : (f32Pack neg m e).toNat % 2 ^ 31 = roundMag m e := by
    rw [toNat_f32Pack]
    split <;> omega
  rw [f32Mag_eq, hmod]

theorem f32Val_f32Pack (neg : Bool) (m e : Nat) :
    f32Val (f32Pack neg m e) = withSign neg (patternMag (roundMag m e)) := by
  rw [f32Val_eq, f32Neg_f32Pack, f32Mag_f32Pack]

/-- A finite packed number was not rounded to infinity. -/
theorem roundMag_lt_of_finite {neg : Bool} {m e : Nat} (h : f32Exp (f32Pack neg m e) ≠ 255) :
    roundMag m e < 0x7F800000 := by
  have hle := roundMag_le m e
  rw [f32Exp, toNat_f32Pack] at h
  split at h <;> omega

theorem getLsbD_zero_f32Pack {neg : Bool} {m e : Nat} (h : roundMag m e % 2 = 0) :
    (f32Pack neg m e).getLsbD 0 = false := by
  rw [← BitVec.testBit_toNat, Nat.testBit_zero, toNat_f32Pack]
  split <;> simp <;> omega

/-- A magnitude `r` as near to `m` as zero and as `y` stays so when `m` and `r` take one sign and `y` takes any. -/
theorem withSign_nearest {m r y : Nat} (neg neg' : Bool) (hzero : |(m : Int) - r| ≤ m)
    (hnear : |(m : Int) - r| ≤ |(m : Int) - y|) :
    |withSign neg m - withSign neg r| ≤ |withSign neg m - withSign neg' y| ∧
    (|withSign neg m - withSign neg r| = |withSign neg m - withSign neg' y| → withSign neg' y ≠ withSign neg r →
      |(m : Int) - r| = |(m : Int) - y| ∧ y ≠ r) := by
  simp only [Int.abs_eq_natAbs] at *
  cases neg <;> cases neg' <;> simp only [withSign, if_true, Bool.false_eq_true, if_false] <;> omega

/-- A packed number is nearest to the exact value among all numbers, ties going to the even pattern (R185). -/
theorem f32Pack_nearest {neg : Bool} {m e : Nat} (hfin : f32Exp (f32Pack neg m e) ≠ 255) (y : F32) :
    |withSign neg m - f32Val (f32Pack neg m e) * 2 ^ e| ≤ |withSign neg m - f32Val y * 2 ^ e| ∧
    (|withSign neg m - f32Val (f32Pack neg m e) * 2 ^ e| = |withSign neg m - f32Val y * 2 ^ e| →
      f32Val y ≠ f32Val (f32Pack neg m e) → (f32Pack neg m e).getLsbD 0 = false) := by
  have hround := roundMag_lt_of_finite hfin
  obtain ⟨hnear, htie⟩ := roundMag_nearest hround (y.toNat % 2 ^ 31)
  -- zero is a pattern too, so the rounded magnitude is at most `m` away
  have hzero : |(m : Int) - (patternMag (roundMag m e) * 2 ^ e : Nat)| ≤ m := by
    simpa [patternMag] using (roundMag_nearest hround 0).1
  rw [← f32Mag_eq] at hnear htie
  obtain ⟨hle, heven⟩ := withSign_nearest neg (f32Neg y) hzero hnear
  rw [← withSign_mul_two_pow, ← f32Val_f32Pack, ← withSign_mul_two_pow, ← f32Val_eq] at hle heven
  refine ⟨hle, fun heq hne => ?_⟩
  obtain ⟨heq, hmag⟩ := heven heq fun h => hne (mul_right_cancel₀ (by positivity) h)
  exact getLsbD_zero_f32Pack (htie heq hmag)

/-! ### The operations -/

theorem fadd_eq (a b : F32) :
    fadd a b = f32Pack (decide (f32Val a + f32Val b < 0)) (f32Val a + f32Val b).natAbs 0 := rfl

theorem withSign_natAbs (v : Int) : withSign (decide (v < 0)) v.natAbs = v := by
  simp only [withSign, decide_eq_true_eq]
  split <;> omega

theorem withSign_mul (neg neg' : Bool) (m n : Nat) :
    withSign neg m * withSign neg' n = withSign (neg ^^ neg') (m * n) := by
  cases neg <;> cases neg' <;> simp [withSign]

/-- A sum of finite numbers that is exactly zero is +0 (R187). -/
theorem fadd_of_sum_zero {a b : F32} (h : f32Val a + f32Val b = 0) : fadd a b = 0 := by
  rw [fadd_eq, h]
  decide +kernel

/-- A magnitude of 24 significant bits is not changed by rounding. -/
theorem f32Mag_f32Pack_exact {neg : Bool} {s k : Nat} (hs : s < 2 ^ 24) (hk : k ≤ 253) :
    f32Mag (f32Pack neg (s * 2 ^ k) 0) = s * 2 ^ k := by
  have hlen : bitLength (s * 2 ^ k) ≤ 24 + k := by
    rw [bitLength_le_iff, pow_add]
    exact Nat.mul_lt_mul_of_pos_right hs (Nat.two_pow_pos k)
  have hpos : roundPos (s * 2 ^ k) 0 ≤ k := by
    unfold roundPos
    omega
  have hdvd : 2 ^ roundPos (s * 2 ^ k) 0 ∣ s * 2 ^ k := dvd_mul_of_dvd_right (pow_dvd_pow 2 hpos) s
  have hfloor : floorPattern (s * 2 ^ k) 0 ≤ 0x7F800000 := by
    have := (kept_significand (s * 2 ^ k) 0).2
    unfold floorPattern
    omega
  have hmag := patternMag_floorPattern (s * 2 ^ k) 0
  rwa [Nat.div_mul_cancel hdvd, pow_zero, Nat.mul_one, ← min_eq_left hfloor, ← roundMag_exact hdvd,
    ← f32Mag_f32Pack neg] at hmag

theorem f32Mag_f32Pack_mono (neg neg' : Bool) {m n : Nat} (e : Nat) (h : m ≤ n) :
    f32Mag (f32Pack neg m e) ≤ f32Mag (f32Pack neg' n e) := by
  rw [f32Mag_f32Pack, f32Mag_f32Pack]
  exact patternMag_strictMono.monotone (roundMag_mono e h)

/-! ### `I2F` -/

theorem f32Mag_i2f (n : Byte) : f32Mag (i2f n) = n.toNat * 2 ^ 149 :=
  f32Mag_f32Pack_exact (by omega) (by decide)

/-- `I2F` is exact (R187). -/
theorem f32Val_i2f (n : Byte) : f32Val (i2f n) = (n.toNat * 2 ^ 149 : Nat) := by
  have hneg : f32Neg (i2f n) = false := f32Neg_f32Pack _ _ _
  rw [f32Val_eq, hneg, f32Mag_i2f]
  rfl

/-! ### Correct rounding -/

/-- Settles O41: `f32Pack` rounds to the nearest, and `I2F` has nothing to round. -/
theorem arithmeticIsCorrectlyRounded : Obligations.ArithmeticIsCorrectlyRounded := by
  refine ⟨fun n => ?_, fun a b y _ _ _ hfin => ?_, fun a b y _ _ _ hfin => ?_, fun a b _ _ h => fadd_of_sum_zero h,
    fun a b => rfl⟩
  · rw [f32Val_i2f]
    push_cast
    rfl
  · have h := f32Pack_nearest hfin y
    rwa [← withSign_mul, ← f32Val_eq, ← f32Val_eq] at h
  · have h := f32Pack_nearest hfin y
    rwa [withSign_natAbs, pow_zero, Int.mul_one, Int.mul_one] at h

end Sys2Proof.Proofs
end

section
/-! SUPPORT. Proofs of statements about the converter (43_converter.md): its formulas, the values that are exact, and the
range of its results. -/

namespace Sys2Proof.Proofs

open Sys2Proof.Machine

/-! ### The formulas -/

theorem exec_mkreading (s : State) :
    exec .mkreading s = .next { s with ret := .reading (mkReading s.lastOk s.frame) } := rfl

theorem exec_ctemp (s : State) : exec .ctemp s = .next { s with ret := .float (ctemp s.frame) } := rfl

theorem exec_chum (s : State) : exec .chum s = .next { s with ret := .float (chum s.frame) } := rfl

/-- The product of one tenth and a byte, the fraction of both formulas. -/
def tenths (n : Byte) : F32 := fmul (i2f n) tenth

theorem chum_eq (f : Vector Byte 5) : chum f = fadd (i2f f[0]) (tenths f[1]) := rfl

theorem ctemp_eq (f : Vector Byte 5) : ctemp f = fadd (tempInteger f) (tenths (frameFrac f)) := rfl

/-- The sign flag is bit 7 of `FRAME[3]` (R86). -/
theorem frameSign_eq (f : Vector Byte 5) : frameSign f = f[3].getLsbD 7 := by
  unfold frameSign
  generalize f[3] = b
  revert b
  decide

/-- Settles O39: the two arms of `MKREADING`. -/
theorem mkReadingFormula : Obligations.MkReadingFormula :=
  ⟨exec_mkreading, fun _ => rfl, fun _ => rfl⟩

/-- Settles O40, by evaluation: the products are the sixteen entries of R193's table. -/
theorem tenthProducts : Obligations.TenthProducts := by
  unfold Obligations.TenthProducts
  decide +kernel

/-- `CTEMP` in the two bytes it reads. -/
theorem ctemp_eq_bytes (f : Vector Byte 5) :
    ctemp f = fadd (if f[3].getLsbD 7 then fsub minusOne (i2f f[2]) else i2f f[2]) (tenths (f[3] &&& 0x0F)) := by
  rw [ctemp_eq, tempInteger, frameSign_eq]
  rfl

/-- Settles O37: the formula is `ctemp_eq_bytes`, and the examples are its values at fixed bytes. -/
theorem ctempFormula : Obligations.CtempFormula := by
  refine ⟨fun s t x ht hx => ?_, fun f h2 h3 => ?_, fun f h2 h3 => ?_, fun f h2 h3 => ?_⟩
  · rw [exec_ctemp, ctemp_eq_bytes, ht, hx]
    rfl
  all_goals
    rw [ctemp_eq_bytes, h2, h3]
    decide +kernel

/-- Settles O43: the mask 0x8F keeps the sign flag and the nibble, all that `ctemp_eq_bytes` reads of `FRAME[3]`. -/
theorem converterReadsOnlyItsBytes : Obligations.ConverterReadsOnlyItsBytes := by
  refine ⟨fun f g h2 h3 => ?_, fun f g h0 h1 => ?_⟩
  · have hsign (b : Byte) : b.getLsbD 7 = (b &&& 0x8F).getLsbD 7 := by simp
    have hfrac (b : Byte) : b &&& 0x0F = (b &&& 0x8F) &&& 0x0F := by rw [BitVec.and_assoc]; rfl
    have h3 : f[3] &&& (0x8F : Byte) = g[3] &&& 0x8F := h3
    rw [ctemp_eq_bytes, ctemp_eq_bytes, h2, hsign f[3], hsign g[3], hfrac f[3], hfrac g[3], h3]
  · rw [chum_eq, chum_eq, h0, h1]

/-! ### Exact sums -/

theorem f32Val_fadd (a b : F32) :
    f32Val (fadd a b) = withSign (decide (f32Val a + f32Val b < 0)) (f32Mag (fadd a b)) := by
  rw [f32Val_eq, fadd_eq, f32Neg_f32Pack]

/-- A sum of 24 significant bits is exact. -/
theorem f32Val_fadd_exact {a b : F32} {neg : Bool} {s k : Nat} (h : f32Val a + f32Val b = withSign neg (s * 2 ^ k))
    (hs : s < 2 ^ 24) (hk : k ≤ 253) : f32Val (fadd a b) = withSign neg (s * 2 ^ k) := by
  have hmag : (f32Val a + f32Val b).natAbs = s * 2 ^ k := by
    rw [h]
    cases neg <;> simp [withSign, Int.natAbs_mul]
  have hround : f32Mag (fadd a b) = s * 2 ^ k := by rw [fadd_eq, hmag, f32Mag_f32Pack_exact hs hk]
  rw [f32Val_fadd, hround, ← hmag, withSign_natAbs, hmag, h]

/-- Adding +0 to an integer of one byte changes no bit. -/
theorem fadd_i2f_zero (n : Byte) : fadd (i2f n) 0 = i2f n := by
  have hsum : f32Val (i2f n) + f32Val 0 = (n.toNat * 2 ^ 149 : Nat) := by
    rw [f32Val_i2f, show f32Val 0 = 0 from rfl, Int.add_zero]
  rw [fadd_eq, hsum, Int.natAbs_natCast, decide_eq_false (by omega), i2f]

/-- A fraction that is a multiple of one half is added exactly. -/
theorem f32Val_fadd_i2f_tenths {n m : Byte} {h : Nat} (hm : f32Val (tenths m) = (h * 2 ^ 148 : Nat)) (hh : h < 2 ^ 23) :
    f32Val (fadd (i2f n) (tenths m)) = f32Val (i2f n) + h * 2 ^ 148 := by
  have hsum : f32Val (i2f n) + f32Val (tenths m) = withSign false ((2 * n.toNat + h) * 2 ^ 148) := by
    rw [f32Val_i2f, hm, withSign]
    simp only [Bool.false_eq_true, if_false]
    omega
  rw [f32Val_fadd_exact hsum (by omega) (by decide), ← hsum, hm]
  push_cast
  rfl

/-- Settles O38: five and ten tenths are one half and one exactly, so their sums are exact; the other values are those at
fixed bytes. -/
theorem chumFormula : Obligations.ChumFormula := by
  have hzero : tenths 0 = 0 := by decide +kernel
  have hfive : f32Val (tenths 5) = (1 * 2 ^ 148 : Nat) := by decide +kernel
  have hten : f32Val (tenths 10) = (2 * 2 ^ 148 : Nat) := by decide +kernel
  refine ⟨exec_chum, fun f h1 => ?_, fun f h1 => ?_, fun f h1 => ?_, fun f h0 h1 => ?_, fun f h0 h1 => ?_⟩
  · rw [chum_eq, h1, hzero, fadd_i2f_zero]
  · rw [chum_eq, h1, f32Val_fadd_i2f_tenths hfive (by decide)]
    rfl
  · rw [chum_eq, h1, f32Val_fadd_i2f_tenths hten (by decide)]
    rfl
  all_goals
    rw [chum_eq, h0, h1]
    decide +kernel

/-! ### The range of the converter -/

/-- A sum of magnitude at most that of a number of 24 significant bits is rounded to at most that number. -/
theorem f32Mag_fadd_le {a b : F32} {s k : Nat} (hs : s < 2 ^ 24) (hk : k ≤ 253)
    (h : (f32Val a + f32Val b).natAbs ≤ s * 2 ^ k) : f32Mag (fadd a b) ≤ s * 2 ^ k := by
  rw [← f32Mag_f32Pack_exact (neg := false) hs hk]
  exact f32Mag_f32Pack_mono _ _ 0 h

theorem le_f32Mag_fadd {a b : F32} {s k : Nat} (hs : s < 2 ^ 24) (hk : k ≤ 253)
    (h : s * 2 ^ k ≤ (f32Val a + f32Val b).natAbs) : s * 2 ^ k ≤ f32Mag (fadd a b) := by
  rw [← f32Mag_f32Pack_exact (neg := false) hs hk]
  exact f32Mag_f32Pack_mono _ _ 0 h

/-- A sum within bounds of 24 significant bits is rounded to within them. -/
theorem f32Val_fadd_mem {a b : F32} {r s k : Nat} (hr : r < 2 ^ 24) (hs : s < 2 ^ 24) (hk : k ≤ 253)
    (hlow : -((r * 2 ^ k : Nat) : Int) ≤ f32Val a + f32Val b) (hhigh : f32Val a + f32Val b ≤ (s * 2 ^ k : Nat)) :
    -((r * 2 ^ k : Nat) : Int) ≤ f32Val (fadd a b) ∧ f32Val (fadd a b) ≤ (s * 2 ^ k : Nat) := by
  rw [f32Val_fadd, withSign]
  by_cases hneg : f32Val a + f32Val b < 0
  · have := f32Mag_fadd_le (a := a) (b := b) hr hk (by omega)
    rw [if_pos (decide_eq_true hneg)]
    omega
  · have := f32Mag_fadd_le (a := a) (b := b) hs hk (by omega)
    rw [if_neg (by simpa using hneg)]
    omega

/-- Normal or +0 (R194). -/
def NormalOrZero (x : F32) : Prop := x = 0 ∨ (1 ≤ f32Exp x ∧ f32Exp x ≤ 254)

theorem f32Mag_lt (x : F32) : f32Mag x < 2 ^ (24 + (f32Exp x - 1)) := by
  have hfrac : f32Frac x < 2 ^ 23 := Nat.mod_lt _ (Nat.two_pow_pos 23)
  rw [pow_add, f32Mag]
  split
  next h => simp only [h]; omega
  next h => exact Nat.mul_lt_mul_of_pos_right (by omega) (Nat.two_pow_pos _)

/-- The unit of the last place of a number with a leading one at or above 2^(23+k) is a multiple of 2^k. -/
theorem two_pow_dvd_f32Mag {x : F32} {k : Nat} (h : 2 ^ (23 + k) ≤ f32Mag x) : 2 ^ k ∣ f32Mag x := by
  have hlt : 23 + k < 24 + (f32Exp x - 1) := (Nat.pow_lt_pow_iff_right (by decide)).1 (h.trans_lt (f32Mag_lt x))
  rw [f32Mag]
  split
  next hzero => simp [show k = 0 by omega]
  next hpos => exact dvd_mul_of_dvd_right (pow_dvd_pow 2 (by omega)) _

/-- A magnitude from 2^23 up to below 2^277, in units of 2^−149, is that of a normal number. -/
theorem exp_normal_of_f32Mag {x : F32} (hlow : 2 ^ 23 ≤ f32Mag x) (hhigh : f32Mag x < 2 ^ 23 * 2 ^ 254) :
    1 ≤ f32Exp x ∧ f32Exp x ≤ 254 := by
  have hfrac : f32Frac x < 2 ^ 23 := Nat.mod_lt _ (Nat.two_pow_pos 23)
  have hexp : f32Exp x < 256 := Nat.mod_lt _ (by decide)
  unfold f32Mag at hlow hhigh
  by_cases hzero : f32Exp x = 0
  · rw [if_pos hzero] at hlow
    omega
  · rw [if_neg hzero] at hhigh
    have htop : f32Exp x ≠ 255 := fun h => by rw [h] at hhigh; omega
    omega

/-- A sum of multiples of 2^122, the last place of one tenth, is zero or far from subnormal. -/
theorem normalOrZero_fadd {a b : F32} (hdvd : (2 ^ 122 : Int) ∣ f32Val a + f32Val b)
    (hhigh : (f32Val a + f32Val b).natAbs ≤ 561 * 2 ^ 148) : NormalOrZero (fadd a b) := by
  by_cases hzero : f32Val a + f32Val b = 0
  · exact .inl (fadd_of_sum_zero hzero)
  · have hle : 1 * 2 ^ 122 ≤ (f32Val a + f32Val b).natAbs := by omega
    have hmin := le_f32Mag_fadd (by decide) (by decide) hle
    have hmax := f32Mag_fadd_le (by decide) (by decide) hhigh
    exact .inr (exp_normal_of_f32Mag (by omega) (by omega))

/-! ### The fraction and the integer part -/

theorem f32Val_tenths (n : Byte) : f32Val (tenths n) = f32Mag (tenths n) := by
  have hi2f : f32Neg (i2f n) = false := f32Neg_f32Pack _ _ _
  have hneg : f32Neg (tenths n) = false := by
    rw [tenths, fmul, f32Neg_f32Pack, hi2f]
    decide
  rw [f32Val_eq, hneg]
  rfl

theorem f32Mag_tenths_mono {n m : Byte} (h : n ≤ m) : f32Mag (tenths n) ≤ f32Mag (tenths m) := by
  refine f32Mag_f32Pack_mono _ _ 149 ?_
  rw [f32Mag_i2f, f32Mag_i2f]
  exact Nat.mul_le_mul_right _ (Nat.mul_le_mul_right _ (BitVec.le_def.1 h))

/-- A fraction is zero or at least one tenth, so a multiple of the last place of one tenth. -/
theorem two_pow_dvd_tenths (n : Byte) : (2 ^ 122 : Int) ∣ f32Val (tenths n) := by
  rw [f32Val_tenths]
  by_cases hn : n = 0
  · rw [hn]
    decide +kernel
  · have hone : f32Mag (tenths 1) = 13421773 * 2 ^ 122 := by decide +kernel
    have hle := f32Mag_tenths_mono (n := 1) (m := n) (by bv_omega)
    exact_mod_cast two_pow_dvd_f32Mag (x := tenths n) (k := 122) (by omega)

/-- The fraction of `CHUM` is at most 25.5. -/
theorem f32Val_tenths_le (n : Byte) : f32Val (tenths n) ≤ (51 * 2 ^ 148 : Nat) := by
  have hmax : f32Mag (tenths 255) = 51 * 2 ^ 148 := by decide +kernel
  rw [f32Val_tenths, ← hmax]
  exact_mod_cast f32Mag_tenths_mono (by bv_omega)

/-- The fraction of `CTEMP` is at most 1.5. -/
theorem f32Val_tenths_frameFrac_le (f : Vector Byte 5) : f32Val (tenths (frameFrac f)) ≤ (3 * 2 ^ 148 : Nat) := by
  have hle : frameFrac f ≤ 15 := BitVec.le_def.2 ((BitVec.toNat_and _ _).trans_le Nat.and_le_right)
  have hmax : f32Mag (tenths 15) = 3 * 2 ^ 148 := by decide +kernel
  rw [f32Val_tenths, ← hmax]
  exact_mod_cast f32Mag_tenths_mono hle

theorem f32Val_fneg (x : F32) : f32Val (fneg x) = -f32Val x := by
  have hmag : f32Mag (fneg x) = f32Mag x := by
    rw [f32Mag_eq, f32Mag_eq, fneg, BitVec.toNat_xor, Nat.xor_mod_two_pow]
    simp
  have hneg : f32Neg (fneg x) = !f32Neg x := by simp [f32Neg, fneg]
  rw [f32Val_eq, f32Val_eq, hmag, hneg]
  cases f32Neg x <;> simp [withSign]

/-- The integer part of the temperature is an integer from −256 to 255, exactly (R189). -/
theorem exists_f32Val_tempInteger (f : Vector Byte 5) :
    ∃ t : Int, f32Val (tempInteger f) = t * 2 ^ 149 ∧ -256 ≤ t ∧ t ≤ 255 := by
  unfold tempInteger
  split
  · refine ⟨-(f[2].toNat + 1), ?_, by omega, by omega⟩
    have hone : f32Val minusOne = -2 ^ 149 := by decide +kernel
    have hsum : f32Val minusOne + f32Val (fneg (i2f f[2])) = withSign true ((f[2].toNat + 1) * 2 ^ 149) := by
      rw [hone, f32Val_fneg, f32Val_i2f, withSign]
      simp only [if_true]
      omega
    rw [fsub, f32Val_fadd_exact hsum (by omega) (by decide), withSign, if_pos rfl]
    push_cast
    exact (neg_mul _ _).symm
  · refine ⟨f[2].toNat, ?_, by omega, by omega⟩
    rw [f32Val_i2f]
    push_cast
    rfl

/-- An integer of the formulas and a fraction have a sum with a normal result, or +0. -/
theorem normalOrZero_fadd_tenths {x : F32} {t : Int} {n : Byte} (ht : f32Val x = t * 2 ^ 149) (hlow : -256 ≤ t)
    (hhigh : f32Val x + f32Val (tenths n) ≤ (561 * 2 ^ 148 : Nat)) : NormalOrZero (fadd x (tenths n)) := by
  have hdvd := two_pow_dvd_tenths n
  have hnonneg := f32Val_tenths n
  rw [ht] at hhigh
  refine normalOrZero_fadd ?_ ?_ <;> rw [ht] <;> omega

/-- `CHUM` is normal or +0 and lies in 0 to 280.5 (R194). -/
theorem chum_range (f : Vector Byte 5) :
    NormalOrZero (chum f) ∧ 0 ≤ f32Val (chum f) ∧ f32Val (chum f) ≤ (561 * 2 ^ 148 : Nat) := by
  have hint := f32Val_i2f f[0]
  have hfrac := f32Val_tenths f[1]
  have hfracle := f32Val_tenths_le f[1]
  have hlow : -((0 * 2 ^ 148 : Nat) : Int) ≤ f32Val (i2f f[0]) + f32Val (tenths f[1]) := by omega
  have hhigh : f32Val (i2f f[0]) + f32Val (tenths f[1]) ≤ (561 * 2 ^ 148 : Nat) := by omega
  obtain ⟨hlow, hhigh'⟩ := f32Val_fadd_mem (by decide) (by decide) (by decide) hlow hhigh
  rw [chum_eq]
  exact ⟨normalOrZero_fadd_tenths (t := f[0].toNat) hint (by omega) hhigh, by omega, hhigh'⟩

/-- `CTEMP` is normal or +0 and lies in −256 to 256.5 (R194). -/
theorem ctemp_range (f : Vector Byte 5) :
    NormalOrZero (ctemp f) ∧ -((512 * 2 ^ 148 : Nat) : Int) ≤ f32Val (ctemp f) ∧
    f32Val (ctemp f) ≤ (513 * 2 ^ 148 : Nat) := by
  obtain ⟨t, hint, htlow, hthigh⟩ := exists_f32Val_tempInteger f
  have hfrac := f32Val_tenths (frameFrac f)
  have hfracle := f32Val_tenths_frameFrac_le f
  have hlow : -((512 * 2 ^ 148 : Nat) : Int) ≤ f32Val (tempInteger f) + f32Val (tenths (frameFrac f)) := by omega
  have hhigh : f32Val (tempInteger f) + f32Val (tenths (frameFrac f)) ≤ (513 * 2 ^ 148 : Nat) := by omega
  rw [ctemp_eq]
  exact ⟨normalOrZero_fadd_tenths hint htlow (by omega), f32Val_fadd_mem (by decide) (by decide) (by decide) hlow hhigh⟩

/-- Settles O42: both sums are multiples of the last place of one tenth, and rounding respects their bounds. -/
theorem converterRange : Obligations.ConverterRange := by
  intro f
  obtain ⟨hhum, hhlow, hhhigh⟩ := chum_range f
  obtain ⟨htemp, htlow, hthigh⟩ := ctemp_range f
  exact ⟨hhum, htemp, hhlow, by omega, by omega, by omega⟩

end Sys2Proof.Proofs
end

section
/-! SUPPORT. Proofs of statements about a `READ` that fails (60_exceptions.md): the handshake timeout (R212), the bit
timeout (R213) and the checksum mismatch (R214). -/

namespace Sys2Proof.Proofs

open Sys2Proof.Machine Sys2Proof.Safety

/-! ### A handshake timeout -/

/-- A LOW pulse that reaches the bound ends the acknowledgment (R144). -/
theorem ack_of_lowTimeout {s : State} (hlow : ∀ k < s.cfg.maxc, upcoming s k = .low) :
    Machine.ack s = (false, { consumed s s.cfg.maxc (List.replicate s.cfg.maxc .low) with
      cnt := BitVec.ofNat 32 s.cfg.maxc }) := by
  rw [Machine.ack, expect_timesOut .low s hlow]
  exact if_pos rfl

/-- The HIGH pulse begins after the sample that ended the LOW one; reaching the bound, it too ends the acknowledgment
(R144). -/
theorem ack_of_highTimeout {s : State} {n : Nat} (hn : n < s.cfg.maxc) (hlow : ∀ k < n, upcoming s k = .low)
    (hend : upcoming s n = .high) (hhigh : ∀ k < s.cfg.maxc, upcoming s (n + 1 + k) = .high) :
    Machine.ack s = (false, { consumed s (n + 1 + s.cfg.maxc)
        (List.replicate n .low ++ List.replicate (s.cfg.maxc + 1) .high) with
      cnt := BitVec.ofNat 32 s.cfg.maxc }) := by
  have hshort := expect_measures n .low s hn hlow (by simp [hend])
  have hstuck := expect_timesOut .high (expect .low s).2 fun k hk => by
    rw [expect_cfg] at hk
    rw [hshort, upcoming_cnt, upcoming_consumed]
    exact hhigh k hk
  rw [Machine.ack, if_neg (by rw [hshort]; exact ofNat_ne_timeout hn), hstuck, if_pos rfl, expect_cfg, hshort, hend]
  have hreads := consumed_consumed s (n + 1) s.cfg.maxc (List.replicate n .low ++ [.high])
    (List.replicate s.cfg.maxc .high)
  rw [List.append_assoc, List.singleton_append, ← List.replicate_succ] at hreads
  rw [← hreads]
  rfl

/-- The state in which the acknowledgment of a fresh `READ` begins (R115, R140 to R143). -/
def readOpened (s : State) : State := opened { sampled s with lastMs := nowOf s }

/-- `s` after a fresh `READ` whose acknowledgment consumed `n` answers, `vs`, and timed out (R212). -/
def handshakeFailed (s : State) (n : Nat) (vs : List Level) : State :=
  { consumed (sampled s) n [] with
    cnt := BitVec.ofNat 32 s.cfg.maxc, lastMs := nowOf s, lastOk := false, frame := Vector.replicate 5 0,
    crit := false, mode := .inputPullup, drv := .low,
    trace := s.trace ++ [.now (nowOf s)] ++ startEvents s.cfg ++ [.critEnter] ++ vs.map Event.read ++ [.critExit] }

/-- A fresh `READ` with an acknowledgment that times out (R212). -/
theorem exec_read_handshakeFailed {s : State} {n : Nat} {vs : List Level} (hp : s.phase = .idle) (hb : s.bound = true)
    (hg : gate (nowOf s) s.lastMs = .fresh)
    (hack : Machine.ack (readOpened s) = (false, { consumed (readOpened s) n vs with
      cnt := BitVec.ofNat 32 s.cfg.maxc })) :
    exec .read s = .next (answered (handshakeFailed s n vs) .read noReading) := by
  have hread : readFresh (nowOf s) (sampled s) = handshakeFailed s n vs := by
    rw [readFresh, xfer_ackFail _ (congrArg Prod.fst hack)]
    exact congrArg (fun a : Bool × State => { a.2.critExit with lastOk := false }) hack
  rw [exec_read_fresh hp hb hg, hread]
  rfl

/-- Settles O16, by the pulse that times out; before it the line is not read, so its answers are those of `s`. -/
theorem handshakeTimeoutFailsRead : Obligations.HandshakeTimeoutFailsRead := by
  refine fun s hp hb hg => ⟨fun hlow => ?_, fun n hn hlow hend hhigh => ?_⟩
  · rw [exec_read_handshakeFailed hp hb hg (ack_of_lowTimeout (s := readOpened s) hlow), handshakeFailed,
      List.map_replicate]
    rfl
  · rw [exec_read_handshakeFailed hp hb hg (ack_of_highTimeout (s := readOpened s) hn hlow hend hhigh), handshakeFailed,
      List.map_append, List.map_replicate, List.map_replicate, ← List.append_assoc]
    rfl

/-! ### A failure after the acknowledgment -/

/-- After the acknowledgment a sentinel fails a fresh `READ` and leaves the frame zero; else the frame is the decoded one,
and the checksum decides (R149, R213, R214). -/
theorem readFresh_of_ackPasses {s : State} (t : Word) (h : ackPasses s) :
    (hasTimeout (readFresh t s).dur →
      (readFresh t s).lastOk = false ∧ (readFresh t s).frame = Vector.replicate 5 0) ∧
    (¬ hasTimeout (readFresh t s).dur →
      (readFresh t s).lastOk = checksumOk (readFresh t s).frame ∧
      (readFresh t s).frame = decodeFrame (readFresh t s).dur (Vector.replicate 5 0)) := by
  rw [not_hasTimeout_iff, ← anyTimeout_iff]
  exact xfer_of_ackPasses (s := { s with lastMs := t }) h

theorem readResponse_of_failed {s : State} (h : s.lastOk = false) : readResponse s = noReading := by
  rw [readResponse, h]; rfl

theorem readResponse_of_ok {s : State} (h : s.lastOk = true) : readResponse s = readingOf s.frame := by
  rw [readResponse, h]; rfl

/-- Settles O17: a sentinel leaves `FRAME` and `LAST_OK` zero. -/
theorem bitTimeoutFailsRead : Obligations.BitTimeoutFailsRead := by
  intro s hp hb hg hack
  refine ⟨_, exec_read_fresh hp hb hg, fun hsentinel => ?_⟩
  obtain ⟨hok, hframe⟩ := (readFresh_of_ackPasses (s := sampled s) (nowOf s) hack).1 hsentinel
  refine ⟨readFresh_lastMs _ _, hok, fun k => ?_, readFresh_crit _ _, readFresh_mode _ _, readResponse_of_failed hok⟩
  rw [answered_frame, hframe]
  exact Vector.getElem_replicate k.isLt

/-- Settles O18: without a sentinel `FRAME` holds the decoded bits, and `LAST_OK` is their checksum test. -/
theorem checksumMismatchFailsRead : Obligations.ChecksumMismatchFailsRead := by
  intro s hp hb hg hack
  refine ⟨_, exec_read_fresh hp hb hg, fun hreal => ?_⟩
  obtain ⟨hok, hframe⟩ := (readFresh_of_ackPasses (s := sampled s) (nowOf s) hack).2 hreal
  refine ⟨fun i => ?_, fun hsum => ?_, fun hsum => ?_⟩
  · exact (congrArg (wireBit · i) hframe).trans (wireBit_decodeFrame _ _ i)
  · have hfail := hok.trans (Bool.eq_false_of_not_eq_true fun hc => hsum ((checksumOk_iff _).1 hc))
    exact ⟨readFresh_lastMs _ _, hfail, readFresh_crit _ _, readFresh_mode _ _, readResponse_of_failed hfail⟩
  · have hpass := hok.trans ((checksumOk_iff _).2 hsum)
    exact ⟨hpass, readResponse_of_ok hpass⟩

end Sys2Proof.Proofs
end

section
/-! SUPPORT. Proofs of statements about hardware reset and the state after `CONSTRUCT` (70_reset_and_hazards.md). -/

namespace Sys2Proof.Proofs

open Sys2Proof.Machine Sys2Proof.Safety

/-! ### An unbound block -/

theorem exec_construct_of_unbound {s : State} (hp : s.phase = .idle) (hb : s.bound = false) (p : BitVec 8) :
    exec (.construct p) s = .next (answered { s with pin := p, bound := true } .construct .ok) := by
  rw [constructBindsPinOnce s p hp, hb]; rfl

theorem exec_begin_of_unbound {s : State} (hp : s.phase = .idle) (hb : s.bound = false) :
    exec .begin s = .next (answered s .refused .err) :=
  beginSeedsTimestamp.2.1 s hp hb

theorem exec_read_of_unbound {s : State} (hp : s.phase = .idle) (hb : s.bound = false) :
    exec .read s = .next (answered s .refused .err) :=
  (readFollowsGate s hp).1 hb

theorem exec_getspecs_of_unbound {s : State} (hp : s.phase = .idle) (hb : s.bound = false) :
    exec .getspecs s = .next (answered s .refused .err) := by
  rw [getSpecsReturnsRecord s hp, hb]; rfl

/-! ### A bound block -/

theorem exec_getspecs_of_bound {s : State} (hp : s.phase = .idle) (hb : s.bound = true) :
    exec .getspecs s = .next (answered s .getspecs (.specs (specsRecord s.cfg))) := by
  rw [getSpecsReturnsRecord s hp, hb]; rfl

theorem readResponse_ne_err (s : State) : readResponse s ≠ .err := by
  cases hok : s.lastOk with
  | false => rw [readResponse_of_failed hok]; exact Response.noConfusion
  | true => rw [readResponse_of_ok hok]; exact Response.noConfusion

/-- A bound block in `IDLE` accepts `BEGIN`, `READ` and `GETSPECS`: none is answered with `ERR` (R110, R215). -/
theorem exec_accepts_of_bound {s : State} (hp : s.phase = .idle) (hb : s.bound = true) {i : Instr}
    (hi : i = .begin ∨ i = .read ∨ i = .getspecs) : ∃ u, exec i s = .next u ∧ u.rsp ≠ .err := by
  rcases hi with rfl | rfl | rfl
  · exact ⟨_, exec_begin hp hb, Response.noConfusion⟩
  · exact ⟨_, exec_read hp hb, readResponse_ne_err _⟩
  · exact ⟨_, exec_getspecs_of_bound hp hb, Response.noConfusion⟩

/-! ### Hardware reset and `CONSTRUCT` after it -/

/-- Settles O7: the fields of `hardReset` are its laws, and it leaves the block unbound in `IDLE`. -/
theorem hardwareResetAbandonsCommand : Obligations.HardwareResetAbandonsCommand := by
  intro s hr
  have hp : s.hardReset.phase = .idle := s.hardReset_phase
  have hb : s.hardReset.bound = false := s.hardReset_bound
  refine ⟨s.hardReset, step_reset s hr, hb, s.hardReset_pin, s.hardReset_lastMs, s.hardReset_lastOk, fun k => ?_, hp,
    s.hardReset_crit, s.hardReset_mode, ?oe, ?pu, s.hardReset_rspValid, s.hardReset_rst, s.hardReset_trace,
    s.hardReset_cmds, s.hardReset_cfg, exec_begin_of_unbound hp hb, exec_read_of_unbound hp hb,
    exec_getspecs_of_unbound hp hb, exec_construct_of_unbound hp hb⟩
  · simp only [State.hardReset_frame]
    exact Vector.getElem_replicate k.isLt
  case oe => rw [lineOe, State.hardReset_mode]; rfl
  case pu => rw [linePu, State.hardReset_mode]; rfl

/-- Settles O8: from reset `CONSTRUCT` finds an unbound block in `IDLE` and leaves a bound one, which accepts the other
three commands. -/
theorem resetAndConstructValues : Obligations.ResetAndConstructValues := by
  refine ⟨⟨rfl, rfl, rfl, rfl, fun k => Vector.getElem_replicate k.isLt, rfl, rfl, rfl⟩, fun p => ?_⟩
  exact ⟨_, exec_construct_of_unbound rfl rfl p, rfl, fun _ => exec_accepts_of_bound rfl rfl⟩

end Sys2Proof.Proofs
end
